-- ==== Sys2Proof/Word.lean ====
section
/-! DEFINITION. The widths of the spec's quantities (00_scope.md R6, R7; 30_encoding.md R72). -/

namespace Sys2Proof

/-- A byte: 8 bits (R6). -/
abbrev Byte := BitVec 8

/-- A byte offset into the device, a length, a buffer index: 16 bits (R6). -/
abbrev Offset := BitVec 16

/-- The host command word: 34 bits, bit 33 the most significant (R72). -/
abbrev CmdWord := BitVec 34

end Sys2Proof
end

