-- ==== Sys2Proof/Syntax.lean ====
section
/-! DEFINITION. The host commands as syntax: one constructor per row of spec/opcode_table.json, and the assembler's
view of a command line (30_encoding.md R72, R77). -/

namespace Sys2Proof

/-- The three host commands (00_scope.md R2), operands at the widths of 30_encoding.md R72. -/
inductive Instr where
  /-- `CREATE_HANDLE base, density` (format H). -/
  | createHandle (base : Byte) (density : BitVec 16)
  /-- `WRITE offset, length` (format T). -/
  | write (offset length : Offset)
  /-- `READ offset, length` (format T). -/
  | read (offset length : Offset)
deriving DecidableEq, Repr

/-- A command line of the assembler (R77): the mnemonic and the numbers as they are written, not yet known to fit
their fields. -/
inductive AsmCmd where
  | createHandle (base density : Nat)
  | write (offset length : Nat)
  | read (offset length : Nat)
deriving DecidableEq, Repr

/-- The command line that stands for an instruction (R77). -/
def Instr.toAsm : Instr → AsmCmd
  | .createHandle base density => .createHandle base.toNat density.toNat
  | .write offset length => .write offset.toNat length.toNat
  | .read offset length => .read offset.toNat length.toNat

end Sys2Proof
end

