-- ==== Sys2Proof/WellFormed.lean ====
section
/-! DEFINITION. Well-formedness of a command: "The assembler rejects an operand that does not fit its field"
(30_encoding.md R77). -/

namespace Sys2Proof

/-- Every operand fits its field (R72, R77). -/
def AsmCmd.wellFormed : AsmCmd → Bool
  | .createHandle base density => decide (base < 2 ^ 8) && decide (density < 2 ^ 16)
  | .write offset length => decide (offset < 2 ^ 16) && decide (length < 2 ^ 16)
  | .read offset length => decide (offset < 2 ^ 16) && decide (length < 2 ^ 16)

/-- An instruction is well formed when its command line is; the fields' types already bound every operand, so each is
(Laws: `wellFormed_all`). A `density` outside the legal set is NOT ill formed (R75): it is a command that fails. -/
def Instr.wellFormed (i : Instr) : Bool := i.toAsm.wellFormed

end Sys2Proof
end

