-- ==== Sys2Proof/Decode.lean ====
section
/-! DEFINITION. The decoder, total over all 2^34 command words (30_encoding.md R74), the encoder from the same tables
(R72), and the assembler (R77). -/

namespace Sys2Proof

/-- Why a word is no command: the two reserved encodings of 30_encoding.md R75. -/
inductive DecodeError where
  /-- `op = 0b00`. -/
  | reservedOpcode
  /-- `op = 0b01` with a non-zero reserved field. -/
  | reservedField
deriving DecidableEq, Repr

/-- `cmd_word[33:32]` (R72). -/
def CmdWord.op (w : CmdWord) : BitVec 2 := w.extractLsb' 32 2

/-- `cmd_word[31:24]`, the reserved field of format H (R72). -/
def CmdWord.rsvd (w : CmdWord) : BitVec 8 := w.extractLsb' 24 8

/-- `cmd_word[23:16]`, the base field of format H (R72). -/
def CmdWord.base (w : CmdWord) : Byte := w.extractLsb' 16 8

/-- `cmd_word[31:16]`, the offset field of format T (R72). -/
def CmdWord.offset (w : CmdWord) : Offset := w.extractLsb' 16 16

/-- `cmd_word[15:0]`: the density of format H, the length of format T (R72). -/
def CmdWord.low (w : CmdWord) : BitVec 16 := w.extractLsb' 0 16

/-- The decoder of 30_encoding.md R74: every word matches exactly one row. -/
def decode (w : CmdWord) : Except DecodeError Instr :=
  if CmdWord.op w = 0b00#2 then .error .reservedOpcode
  else if CmdWord.op w = 0b01#2 then
    if CmdWord.rsvd w = 0#8 then .ok (.createHandle (CmdWord.base w) (CmdWord.low w))
    else .error .reservedField
  else if CmdWord.op w = 0b10#2 then .ok (.write (CmdWord.offset w) (CmdWord.low w))
  else .ok (.read (CmdWord.offset w) (CmdWord.low w))

/-- The command word of an instruction, from the field tables of 30_encoding.md R72. -/
def encode : Instr → CmdWord
  | .createHandle base density => 0b01#2 ++ 0#8 ++ base ++ density
  | .write offset length => 0b10#2 ++ offset ++ length
  | .read offset length => 0b11#2 ++ offset ++ length

/-- The mask of an instruction's row (R74). -/
def rowMask : Instr → CmdWord
  | .createHandle _ _ => 0x3FF000000#34
  | .write _ _ => 0x300000000#34
  | .read _ _ => 0x300000000#34

/-- The match value of an instruction's row (R74). -/
def rowMatch : Instr → CmdWord
  | .createHandle _ _ => 0x100000000#34
  | .write _ _ => 0x200000000#34
  | .read _ _ => 0x300000000#34

/-- The word that a number of the table's bit numbering stands for: its low `nbits` bits, the bits above being 0; none
where they are no 34-bit word (log 4). -/
def tableWord (nbits w : Nat) : Option CmdWord :=
  if w % 2 ^ nbits < 2 ^ 34 then some (BitVec.ofNat 34 (w % 2 ^ nbits)) else none

/-- The instruction the decoder reads from a word numbered as spec/opcode_table.json numbers it. -/
def decodeTableWord (nbits w : Nat) : Option Instr :=
  match tableWord nbits w with
  | none => none
  | some word =>
    match decode word with
    | .ok i => some i
    | .error _ => none

/-! ## The assembler (30_encoding.md R77; log 18) -/

/-- The instruction of a command line; none where an operand does not fit its field. -/
def AsmCmd.toInstr (c : AsmCmd) : Option Instr :=
  if c.wellFormed then
    match c with
    | .createHandle base density => some (.createHandle (BitVec.ofNat 8 base) (BitVec.ofNat 16 density))
    | .write offset length => some (.write (BitVec.ofNat 16 offset) (BitVec.ofNat 16 length))
    | .read offset length => some (.read (BitVec.ofNat 16 offset) (BitVec.ofNat 16 length))
  else none

/-- The value of a digit character below `radix`, both cases of the hexadecimal letters. -/
def digitValue (radix : Nat) (c : Char) : Option Nat :=
  let n := c.toNat
  let v := if 48 ≤ n ∧ n ≤ 57 then n - 48
    else if 65 ≤ n ∧ n ≤ 70 then n - 55
    else if 97 ≤ n ∧ n ≤ 102 then n - 87
    else radix
  if v < radix then some v else none

/-- The number a run of digits writes, most significant first; none for an empty run or a character that is no digit. -/
def digitsValue (radix : Nat) : List Char → Option Nat
  | [] => none
  | cs => cs.foldl (fun acc c => match acc, digitValue radix c with
      | some a, some v => some (a * radix + v)
      | _, _ => none) (some 0)

/-- "a number is decimal or `0x` hexadecimal". -/
def parseNumber : List Char → Option Nat
  | '0' :: 'x' :: cs => digitsValue 16 cs
  | cs => digitsValue 10 cs

/-- "`;` starts a comment": the line before it. -/
def stripComment : List Char → List Char := List.takeWhile (fun c => c != ';')

/-- Drops the blanks at both ends. -/
def trimBlanks (cs : List Char) : List Char :=
  ((cs.dropWhile (· == ' ')).reverse.dropWhile (· == ' ')).reverse

/-- "operands separated by a comma": exactly two numbers. -/
def parseOperands (cs : List Char) : Option (Nat × Nat) :=
  let first := cs.takeWhile (fun c => c != ',')
  match cs.dropWhile (fun c => c != ',') with
  | ',' :: second =>
    match parseNumber (trimBlanks first), parseNumber (trimBlanks second) with
    | some a, some b => some (a, b)
    | _, _ => none
  | _ => none

/-- One command line: the mnemonic, a blank, the operands. -/
def parseLine (cs : List Char) : Option AsmCmd :=
  let line := trimBlanks (stripComment cs)
  let mnemonic := line.takeWhile (fun c => c != ' ')
  match parseOperands (line.dropWhile (fun c => c != ' ')) with
  | none => none
  | some (a, b) =>
    if mnemonic = ['C', 'R', 'E', 'A', 'T', 'E', '_', 'H', 'A', 'N', 'D', 'L', 'E'] then some (.createHandle a b)
    else if mnemonic = ['W', 'R', 'I', 'T', 'E'] then some (.write a b)
    else if mnemonic = ['R', 'E', 'A', 'D'] then some (.read a b)
    else none

/-- The command word of a line of text; none where the line is no command or an operand does not fit its field. -/
def assemble (cs : List Char) : Option CmdWord :=
  match parseLine cs with
  | none => none
  | some c => c.toInstr.map encode

end Sys2Proof
end

