-- ==== Sys2Proof/Config.lean ====
section
/-! DEFINITION. The dispatch record's type (10_state.md R12), and the values the spec leaves open: constants with
no body, so that nothing can be proved about what they are. -/

namespace Sys2Proof

/-- A row of the source's density table (00_scope.md R8, 40_dispatch_and_handle.md R100). -/
inductive Family where
  | A | B | C | D | E | F | G | H
deriving DecidableEq, Repr

/-- The three shapes the families fall into (R100): M1 one address byte and no folded bits, M2 one address byte and
1 to 3 folded bits, M3 two address bytes and no folded bits. -/
inductive AddrMode where
  | M1 | M2 | M3
deriving DecidableEq, Repr

/-- The record `REC` a density selects, with the widths of 10_state.md R12. -/
structure Rec where
  density   : BitVec 16
  family    : Family
  mode      : AddrMode
  pageSize  : BitVec 9
  foldBits  : BitVec 2
  foldMask  : BitVec 16
  addrBytes : BitVec 2
  cap       : BitVec 18
  reach     : BitVec 17
deriving DecidableEq, Repr

/-- The byte of `WBUF` at an index where the host has placed none (10_state.md R28): a free value, log 9. -/
opaque Config.initialWbuf : Nat → Byte

/-- The byte `RBUF` held at an index nobody has written since reset (10_state.md R28): a free value, log 9. -/
opaque Config.initialRbuf : Nat → Byte

/-- The reference device's byte at an address nothing has written, in the `epoch`-th life of its array
(20_memory.md R60): a free value, log 9 and log 12. -/
opaque Config.initialMem : (epoch : Nat) → (address : Nat) → Byte

/-- How many steps the device's internal write cycle still lasts ("a finite time the source does not give",
20_memory.md R63): a free value of the `draw`-th cycle, log 10. -/
opaque Config.writeCycleTime : (draw : Nat) → Nat

/-- Whether a byte of a chunk that was cut short is in the device (93_implementation_defined.md U8: "each either old or
new"): a free value of the draw and the address, log 11. -/
opaque Config.chunkByteLands : (draw address : Nat) → Bool

/-- What the device returns when its counter is past the end of its array (20_memory.md R64, 91_not_in_source.md N12):
a free value, log 12. -/
opaque Config.pastEndByte : (draw address : Nat) → Byte

/-- Where the device's counter goes when a read takes it past the end of its array (20_memory.md R64: what `AC` does
there is "undefined/implementation-specific per datasheet"): a free value of the draw and the last address, log 12. -/
opaque Config.counterPastEnd : (draw address : Nat) → Nat

/-- Where the device's counter stands after a session that sent it fewer address bytes than it takes
(93_implementation_defined.md U13), or that was cut with an operation on the counter in flight: a free value, log 11
and log 12. -/
opaque Config.partialAddress : (draw : Nat) → Nat

end Sys2Proof
end

