-- ==== Sys2Proof/Machine/State.lean ====
section
/-! DEFINITION. The engine's state as plain data: the registers of 10_state.md R10, the ports of 30_encoding.md R70, R71,
R82, R83, and the environment the spec's rules touch (buffers, bus session, reference device). -/

namespace Sys2Proof.Machine

/-! ## Memories -/

/-- A memory: its listed bytes, addresses strictly rising; an unlisted address holds nothing the model knows. -/
abbrev Memory := List Host.Cell

/-! ## What the engine's registers hold -/

/-- The sequencer's phase (10_state.md R16). -/
inductive Phase where
  | idle
  | wBegin | wAhi | wAlo | wData | wEnd
  | rBeginW | rAhi | rAlo | rEndW | rBeginR | rData | rEnd
deriving DecidableEq, Repr

/-- A completion status (60_exceptions.md R181). Codes 6 and 7 are never produced, so no constructor stands for them. -/
inductive Status where
  | ok | errConfig | errRange | errNoHandle | errIllegalCmd | errTransport
deriving DecidableEq, Repr

/-- The handle registers (10_state.md R11). `base7` is `BASE[7:1]`; `BASE[0]` is hardwired 0 and not stored. -/
structure Handle where
  hvalid  : Bool
  base7   : BitVec 7
  density : BitVec 16
deriving DecidableEq, Repr

/-- The command latch (10_state.md R13). -/
structure Latch where
  op   : BitVec 2
  cOff : Offset
  cLen : Offset
deriving DecidableEq, Repr

/-- The datapath registers (10_state.md R14). -/
structure Datapath where
  curOff : Offset
  idx    : Offset
  rem    : Offset
  pos    : BitVec 8
  chunk  : BitVec 9
  busb   : Byte
  k      : BitVec 9
deriving DecidableEq, Repr

/-! ## The ports -/

/-- The five transport operations (43_transport.md R160, R165 to R169). -/
inductive TOp where
  | beginSession (b : Byte)
  | writeByte (v : Byte)
  | readByteAck
  | readByteNak
  | endSession
deriving DecidableEq, Repr

/-- A transport answer (43_transport.md R161): `t_done` with `t_rdata`, or `t_fail`. -/
inductive Answer where
  | done (rdata : Byte)
  | fail
deriving DecidableEq, Repr

/-- The buffer port (30_encoding.md R83). -/
structure BufPort where
  idx   : Offset
  re    : Bool
  we    : Bool
  wdata : Byte
deriving DecidableEq, Repr

/-- What an observer outside the engine sees (00_scope.md R9): transport operations issued, buffer accesses, responses.
A `wbufRead` carries the byte read. -/
inductive Event where
  | op (o : TOp)
  | wbufRead (i : Offset) (v : Byte)
  | rbufWrite (i : Offset) (v : Byte)
  | response (st : Status)
deriving DecidableEq, Repr

/-! ## The environment -/

/-- What the outside world drives during one step (log 3): the pins `rst`, `cmd_valid` with `cmd_word`
(none: not valid), `t_done` or `t_fail` (none: neither), and what the host does beside them: the bytes it
places in its buffers, and whether it restores the transport to idle (70_reset_and_hazards.md R222, R227).
`leftOpen` says how the transport leaves the session after a failure or a reset (log 8). -/
structure Sample where
  rst      : Bool
  cmd      : Option CmdWord
  answer   : Option Answer
  leftOpen : Bool
  wbuf     : List Host.Cell
  rbuf     : List Host.Cell
  restore  : Bool
deriving DecidableEq, Repr

/-- What the reference device expects next (20_memory.md R61 to R64): nothing; an address byte (with the folded bits of
the bus byte and the first of two address bytes, once it has come); data bytes (whether it has taken one); reads; or the end
of a read session, the bus released after `RN` (R64). -/
inductive DevSession where
  | idle
  | address (hi : Nat) (first : Option Byte)
  | data (stored : Bool)
  | reading
  | released
deriving DecidableEq, Repr

/-- The reference device `DEV(d, strap)` (20_memory.md R60): environment, not engine. `ac` is the address counter
`AC`; `wcycle` is 0 when the flag `WCYCLE` is clear, else the steps the write cycle still lasts (log 10). `undo` holds what the
bytes of the open chunk replaced, newest first (log 11); `epoch` and `draws` count the free values (log 12). -/
structure Device where
  density : BitVec 16
  strap   : Byte
  mem     : Memory
  ac      : Nat
  wcycle  : Nat
  session : DevSession
  undo    : List (Nat × Option Byte)
  epoch   : Nat
  draws   : Nat
deriving DecidableEq, Repr

/-- The environment: the inputs still to come, the host's buffers, whether a session is open on the bus, and the device
attached (none: the transport's answers are the samples'). -/
structure Env where
  inputs      : List Sample
  wbuf        : Memory
  rbuf        : Memory
  sessionOpen : Bool
  device      : Option Device
deriving DecidableEq, Repr

/-! ## The state, the stops, reset -/

/-- The whole machine. `rsp` is the response port (`rsp_valid` with `rsp_status`, none: not valid); `outstanding` is the
transport operation issued and not yet answered (`t_req`, `t_op`, `t_wdata`); `log` is the observer's record (log 16). -/
structure State where
  handle      : Handle
  latch       : Latch
  dp          : Datapath
  phase       : Phase
  busy        : Bool
  status      : Status
  rsp         : Option Status
  outstanding : Option TOp
  buf         : BufPort
  log         : List Event
  env         : Env
deriving DecidableEq, Repr

/-- How the machine stops with a fault. -/
inductive Fault where
  /-- Raised where `REC` is needed and `DENSITY` is not legal (10_state.md R12: "meaningful only while `HVALID = 1`").
  No run reaches it (log 14). Safe. -/
  | noRecord
deriving DecidableEq, Repr

/-- How the model declines to give a next state. -/
inductive Refusal where
  /-- Raised by an arm of `exec` whose instruction has no meaning yet. Safe. -/
  | notModelled (mnemonic : String)
  /-- Raised by the sequencer where `T.begin` would be issued inside an open session (70_reset_and_hazards.md R227;
  93_implementation_defined.md U8, log 7). Safe. -/
  | beginInOpenSession
  /-- Raised by the reference device for an operation no rule of 20_memory.md R61 to R64 gives it a reaction to (log 13). Safe. -/
  | operationOutsideContract
deriving DecidableEq, Repr

/-- A sample in which the outside world does nothing. -/
def Sample.quiet : Sample :=
  { rst := false, cmd := none, answer := none, leftOpen := false, wbuf := [], rbuf := [], restore := false }

/-- The machine right after reset (10_state.md R31; 70_reset_and_hazards.md R210): `HVALID = 0`, `PHASE = IDLE`, `BUSY = 0`,
`STATUS = 0`, the ports deasserted. Every register the spec leaves unspecified is 0 (DESIGN CHOICE, log 1).
No input is listed, no device is attached, no session is open. -/
def State.reset : State :=
  { handle := { hvalid := false, base7 := 0, density := 0 }
    latch := { op := 0, cOff := 0, cLen := 0 }
    dp := { curOff := 0, idx := 0, rem := 0, pos := 0, chunk := 0, busb := 0, k := 0 }
    phase := .idle
    busy := false
    status := .ok
    rsp := none
    outstanding := none
    buf := { idx := 0, re := false, we := false, wdata := 0 }
    log := []
    env := { inputs := [], wbuf := [], rbuf := [], sessionOpen := false, device := none } }

end Sys2Proof.Machine
end

