-- ==== Sys2Proof/Machine/Ops.lean ====
section
/-! DEFINITION. The named operations over memories and registers, and the completion of a command: the engine's
"exception entry" is a completion with a non-OK status (60_exceptions.md R188), its "return" the next acceptance (R189). -/

namespace Sys2Proof.Machine

/-! ## Memories in canonical form -/

/-- The byte listed at an address; none where nothing has been written. -/
def Memory.get? : Memory → Nat → Option Byte
  | [], _ => none
  | (b, v) :: rest, a => if a = b then some v else Memory.get? rest a

/-- Writes one byte, keeping the addresses strictly rising. -/
def Memory.put : Memory → Nat → Byte → Memory
  | [], a, v => [(a, v)]
  | (b, w) :: rest, a, v =>
    if a < b then (a, v) :: (b, w) :: rest
    else if a = b then (a, v) :: rest
    else (b, w) :: Memory.put rest a v

/-- Forgets the byte at an address. -/
def Memory.erase : Memory → Nat → Memory
  | [], _ => []
  | (b, w) :: rest, a => if a = b then rest else (b, w) :: Memory.erase rest a

/-- Puts back what an address held before. -/
def Memory.restore (m : Memory) (a : Nat) : Option Byte → Memory
  | some v => Memory.put m a v
  | none => Memory.erase m a

/-- Writes a list of bytes, first to last. -/
def Memory.putAll (m : Memory) (cells : List Host.Cell) : Memory :=
  cells.foldl (fun m c => Memory.put m c.1 c.2) m

/-- The canonical form: addresses strictly rising. An unlisted address holds no value, so no entry equals it. -/
abbrev Memory.wf (m : Memory) : Prop := m.Pairwise (fun a b => a.1 < b.1)

/-- `WBUF[i]` (10_state.md R28): the host's byte, a free value where it has placed none (log 9). -/
def State.wbufAt (s : State) (i : Nat) : Byte := (Memory.get? s.env.wbuf i).getD (Config.initialWbuf i)

/-- `RBUF[i]` (10_state.md R28), a free value where nothing has been written (log 9). -/
def State.rbufAt (s : State) (i : Nat) : Byte := (Memory.get? s.env.rbuf i).getD (Config.initialRbuf i)

/-! ## Register accessors and output ports -/

/-- `BASE` as the host and the bus see it: bit 0 is hardwired 0 (10_state.md R11). -/
def State.base (s : State) : Byte := s.handle.base7 ++ 0#1

/-- `BASE <- base & 0xFE`, `DENSITY <- density`, `HVALID <- 1` (40_dispatch_and_handle.md R110). -/
def State.storeHandle (base : Byte) (density : BitVec 16) (s : State) : State :=
  { s with handle := { hvalid := true, base7 := base.extractLsb' 1 7, density := density } }

/-- `HVALID <- 0`; `BASE` and `DENSITY` keep what they hold (40 R111; 60_exceptions.md R188). -/
def State.invalidateHandle (s : State) : State :=
  { s with handle := { s.handle with hvalid := false } }

/-- The input sample of the step about to be taken. -/
def State.pins (s : State) : Sample := s.env.inputs.headD Sample.quiet

/-- `cmd_ready` (30_encoding.md R70; 70_reset_and_hazards.md R210: 0 while `rst` is asserted). -/
def State.cmdReady (s : State) : Bool := decide (s.phase = .idle) && !s.pins.rst

/-- `t_req` (30_encoding.md R82). -/
def State.tReq (s : State) : Bool := s.outstanding.isSome

/-- The operation codes of `t_op` (30_encoding.md R82). -/
def TOp.code : TOp → BitVec 3
  | .beginSession _ => 1
  | .writeByte _ => 2
  | .readByteAck => 3
  | .readByteNak => 4
  | .endSession => 5

/-- `t_wdata` of an operation; the three that carry no byte give none (R82). -/
def TOp.wdata : TOp → Option Byte
  | .beginSession b => some b
  | .writeByte v => some v
  | .readByteAck => none
  | .readByteNak => none
  | .endSession => none

/-- `t_op` (R82). While no operation is outstanding it is 0, the code of none: R82 says only that 0 is never issued with
`t_req = 1`, and the value beside `t_req = 0` is the model's choice (DESIGN CHOICE, log 20). -/
def State.tOp (s : State) : BitVec 3 := (s.outstanding.map TOp.code).getD 0

/-! ## Buffer accesses -/

/-- Reads `WBUF[i]` through the buffer port (30_encoding.md R83): presents `buf_idx` with `buf_re`. -/
def State.wbufRead (i : Offset) (s : State) : State :=
  { s with
    buf := { s.buf with idx := i, re := true }
    log := s.log ++ [.wbufRead i (s.wbufAt i.toNat)] }

/-- `RBUF[i] <- v` through the buffer port (R83): presents `buf_idx` and `buf_wdata` with `buf_we`. -/
def State.rbufWrite (i : Offset) (v : Byte) (s : State) : State :=
  { s with
    buf := { s.buf with idx := i, we := true, wdata := v }
    env := { s.env with rbuf := Memory.put s.env.rbuf i.toNat v }
    log := s.log ++ [.rbufWrite i v] }

/-! ## Acceptance and completion -/

/-- The acceptance of a command word (10_state.md R13, R20): `OP`, `C_OFF`, `C_LEN` are latched, `BUSY <- 1`. -/
def State.accept (w : CmdWord) (s : State) : State :=
  { s with latch := { op := CmdWord.op w, cOff := CmdWord.offset w, cLen := CmdWord.low w }, busy := true }

/-- *complete with status s* (10_state.md R23): `STATUS <- s`, `BUSY <- 0`, `PHASE <- IDLE`, the response is presented. -/
def complete (st : Status) (s : State) : State :=
  { s with status := st, busy := false, phase := .idle, rsp := some st, log := s.log ++ [.response st] }

/-- `raise st` (00_scope.md R7): the command ends with that completion status, as 60_exceptions.md R188 says it leaves the state. -/
def raise (st : Status) (s : State) : State := complete st s

/-! ## Reset -/

/-- The engine's part of a reset (70_reset_and_hazards.md R210, R211): `HVALID`, `PHASE`, `BUSY`, `STATUS` and the ports'
strobes; an outstanding operation is dropped; no response. The other registers are not written (10_state.md R19; log 2). -/
def State.hardReset (s : State) : State :=
  { s with
    handle := { s.handle with hvalid := false }
    phase := .idle
    busy := false
    status := .ok
    rsp := none
    outstanding := none
    buf := { s.buf with re := false, we := false } }

end Sys2Proof.Machine
end

