-- ==== Sys2Proof/Machine/Operands.lean ====
section
/-! DEFINITION. The density-indexed dispatch (40_dispatch_and_handle.md R101, R102) and the address translation
(20_memory.md R50 to R53): the block's "operand forms". -/

namespace Sys2Proof.Machine

/-- The dispatch table, row by row as 40_dispatch_and_handle.md R101 has it. -/
def dispatchTable : List Rec :=
  [ ⟨1,    .A, .M1, 8,   0, 0x0000, 1, 128,    128⟩,
    ⟨2,    .A, .M1, 8,   0, 0x0000, 1, 256,    256⟩,
    ⟨4,    .B, .M2, 16,  1, 0x0100, 1, 512,    512⟩,
    ⟨8,    .C, .M2, 16,  2, 0x0300, 1, 1024,   1024⟩,
    ⟨16,   .D, .M2, 16,  3, 0x0700, 1, 2048,   2048⟩,
    ⟨32,   .E, .M3, 32,  0, 0x0000, 2, 4096,   4096⟩,
    ⟨64,   .E, .M3, 32,  0, 0x0000, 2, 8192,   8192⟩,
    ⟨128,  .F, .M3, 64,  0, 0x0000, 2, 16384,  16384⟩,
    ⟨256,  .F, .M3, 64,  0, 0x0000, 2, 32768,  32768⟩,
    ⟨512,  .G, .M3, 128, 0, 0x0000, 2, 65536,  65536⟩,
    ⟨1024, .H, .M3, 256, 0, 0x0000, 2, 131072, 65536⟩ ]

/-- `DISPATCH(d)` (R102): the row whose density equals `d`, or none. -/
def dispatch (d : BitVec 16) : Option Rec := dispatchTable.find? (fun r => r.density = d)

/-- `REC` (10_state.md R12): combinational in `DENSITY`. -/
def State.record (s : State) : Option Rec := dispatch s.handle.density

/-- `PAGE_SIZE` as a number. -/
def pageOf (r : Rec) : Nat := r.pageSize.toNat

/-- `CAP` as a number. -/
def capOf (r : Rec) : Nat := r.cap.toNat

/-- `REACH` as a number. -/
def reachOf (r : Rec) : Nat := r.reach.toNat

/-- `ADDR_BYTES` as a number. -/
def addrBytesOf (r : Rec) : Nat := r.addrBytes.toNat

/-- `FOLD(off) = ((off & FOLD_MASK) >> 8) << 1`, 8 bits (20_memory.md R50). -/
def fold (r : Rec) (off : Offset) : Byte := ((((off &&& r.foldMask) >>> 8) <<< 1)).setWidth 8

/-- `BUSADDR(off) = BASE | FOLD(off)` (R50). -/
def busAddr (r : Rec) (base : Byte) (off : Offset) : Byte := base ||| fold r off

/-- `off[15:8]`. -/
def hiByte (off : Offset) : Byte := off.extractLsb' 8 8

/-- `off[7:0]`. -/
def loByte (off : Offset) : Byte := off.extractLsb' 0 8

/-- The memory-address byte(s), in the order they are sent (R41, R51; 30_encoding.md R81). -/
def addressBytes (r : Rec) (off : Offset) : List Byte :=
  if r.addrBytes = 2 then [hiByte off, loByte off] else [loByte off]

/-- `XLATE(off)` (R52). -/
def xlate (r : Rec) (base : Byte) (off : Offset) : Byte × List Byte := (busAddr r base off, addressBytes r off)

/-- `CUR_OFF mod PAGE_SIZE`, 8 bits (30_encoding.md R86). -/
def pagePos (r : Rec) (off : Offset) : BitVec 8 := (off % r.pageSize.setWidth 16).setWidth 8

/-- `min(PAGE_SIZE - POS, REM)`, 9 bits from 9 and 16 (R86). -/
def chunkSize (r : Rec) (pos : BitVec 8) (rem : Offset) : BitVec 9 :=
  let room := r.pageSize - pos.setWidth 9
  if room.setWidth 16 ≤ rem then room else rem.setWidth 9

end Sys2Proof.Machine
end

