-- ==== Sys2Proof/Machine/Flags.lean ====
section
/-! DEFINITION. The completion codes (60_exceptions.md R181) and the checks made at acceptance in their priority order
(R186). The engine has no condition codes (10_state.md R18). -/

namespace Sys2Proof.Machine

/-- The 3-bit code of a status (R181). -/
def Status.code : Status → BitVec 3
  | .ok => 0
  | .errConfig => 1
  | .errRange => 2
  | .errNoHandle => 3
  | .errIllegalCmd => 4
  | .errTransport => 5

/-- `C_OFF + C_LEN <= REACH`, the sum taken in 17 bits (60_exceptions.md R184; 30_encoding.md R86). -/
def inRange (r : Rec) (off len : Offset) : Bool :=
  decide (off.setWidth 17 + len.setWidth 17 ≤ r.reach)

/-- The checks `WRITE` and `READ` share, in the order of R186: the handle, the range, the length-0 completion; then
`start`, which enters the sequencer. -/
def admitTransfer (off len : Offset) (start : Rec → State → State) (s : State) : Host.Outcome State Fault Refusal :=
  if s.handle.hvalid then
    match s.record with
    | none => .fault .noRecord
    | some r =>
      if inRange r off len then
        if len = 0 then .next (complete .ok s) else .next (start r s)
      else .next (raise .errRange s)
  else .next (raise .errNoHandle s)

end Sys2Proof.Machine
end

