-- ==== Sys2Proof/Machine/Handle.lean ====
section
/-! DEFINITION. The command CREATE_HANDLE (40_dispatch_and_handle.md R110, R111). -/

namespace Sys2Proof.Machine

/-- `CREATE_HANDLE base, density` (R110): an illegal density invalidates the handle and completes `ERR_CONFIG` (R111);
a legal one replaces the whole handle and completes `OK`. No transport operation in either case. -/
def execCreateHandle (base : Byte) (density : BitVec 16) (s : State) : Host.Outcome State Fault Refusal :=
  match dispatch density with
  | none => .next (raise .errConfig s.invalidateHandle)
  | some _ => .next (complete .ok (s.storeHandle base density))

end Sys2Proof.Machine
end

