-- ==== Sys2Proof/Machine/Read.lean ====
section
/-! DEFINITION. The command READ (42_read.md R141) as the sequencer's steps (10_state.md R20, R22). -/

namespace Sys2Proof.Machine

/-- The start of a `READ` of non-zero length (R20): `CUR_OFF`, `IDX`, `REM`, `BUSB`, `PHASE <- R_BEGINW`.
`POS`, `CHUNK`, `K` are not used (R141). -/
def startRead (off len : Offset) (r : Rec) (s : State) : State :=
  { s with
    dp := { s.dp with curOff := off, idx := 0, rem := len, busb := busAddr r s.base off }
    phase := .rBeginW }

/-- `READ offset, length` at its acceptance (R20; 60_exceptions.md R186); the sequencer does the rest. -/
def execRead (off len : Offset) (s : State) : Host.Outcome State Fault Refusal :=
  admitTransfer off len (startRead off len) s

/-! ## On done, phase by phase (R22) -/

/-- `R_BEGINW` done: the high address byte where there are two, else the low one. -/
def rBeginWDone (s : State) : Host.Outcome State Fault Refusal :=
  match s.record with
  | none => .fault .noRecord
  | some r => .next { s with phase := if r.addrBytes = 2 then .rAhi else .rAlo }

/-- `R_AHI` done. -/
def rAhiDone (s : State) : Host.Outcome State Fault Refusal := .next { s with phase := .rAlo }

/-- `R_ALO` done. -/
def rAloDone (s : State) : Host.Outcome State Fault Refusal := .next { s with phase := .rEndW }

/-- `R_ENDW` done. -/
def rEndWDone (s : State) : Host.Outcome State Fault Refusal := .next { s with phase := .rBeginR }

/-- `R_BEGINR` done. -/
def rBeginRDone (s : State) : Host.Outcome State Fault Refusal := .next { s with phase := .rData }

/-- `IDX` and `REM` past the byte just received (R22). -/
def advanceRead (s : State) : State :=
  { s with dp := { s.dp with idx := s.dp.idx + 1, rem := s.dp.rem - 1 } }

/-- `R_DATA` done with the byte `v`: `RBUF[IDX] <- v`, advance, and `R_END` when the new `REM = 0`. -/
def rDataDone (v : Byte) (s : State) : Host.Outcome State Fault Refusal :=
  .next { advanceRead (s.rbufWrite s.dp.idx v) with
    phase := if s.dp.rem - 1 = 0 then .rEnd else .rData }

/-- `R_END` done: complete with `OK`. -/
def rEndDone (s : State) : Host.Outcome State Fault Refusal := .next (complete .ok s)

end Sys2Proof.Machine
end

