-- ==== Sys2Proof/Machine/Write.lean ====
section
/-! DEFINITION. The command WRITE (41_write.md R121) as the sequencer's steps (10_state.md R20, R21). -/

namespace Sys2Proof.Machine

/-- *Chunk setup* (R21): `POS`, `CHUNK`, `BUSB`, `K`. -/
def chunkSetup (r : Rec) (s : State) : State :=
  { s with dp := { s.dp with
      pos := pagePos r s.dp.curOff
      chunk := chunkSize r (pagePos r s.dp.curOff) s.dp.rem
      busb := busAddr r s.base s.dp.curOff
      k := 0 } }

/-- The start of a `WRITE` of non-zero length (R20): `CUR_OFF`, `IDX`, `REM`, chunk setup, `PHASE <- W_BEGIN`. -/
def startWrite (off len : Offset) (r : Rec) (s : State) : State :=
  { chunkSetup r { s with dp := { s.dp with curOff := off, idx := 0, rem := len } } with phase := .wBegin }

/-- `WRITE offset, length` at its acceptance (R20; 60_exceptions.md R186); the sequencer does the rest. -/
def execWrite (off len : Offset) (s : State) : Host.Outcome State Fault Refusal :=
  admitTransfer off len (startWrite off len) s

/-! ## On done, phase by phase (R21) -/

/-- `W_BEGIN` done: the high address byte where there are two, else the low one. -/
def wBeginDone (s : State) : Host.Outcome State Fault Refusal :=
  match s.record with
  | none => .fault .noRecord
  | some r => .next { s with phase := if r.addrBytes = 2 then .wAhi else .wAlo }

/-- `W_AHI` done. -/
def wAhiDone (s : State) : Host.Outcome State Fault Refusal := .next { s with phase := .wAlo }

/-- `W_ALO` done. -/
def wAloDone (s : State) : Host.Outcome State Fault Refusal := .next { s with phase := .wData }

/-- `W_DATA` done: `K <- K + 1`, and `W_END` when the new `K = CHUNK`. -/
def wDataDone (s : State) : Host.Outcome State Fault Refusal :=
  .next { s with
    dp := { s.dp with k := s.dp.k + 1 }
    phase := if s.dp.k + 1 = s.dp.chunk then .wEnd else .wData }

/-- `CUR_OFF`, `IDX`, `REM` past the chunk just sent (R21, R86; `CUR_OFF` modulo 2^16). -/
def advanceChunk (s : State) : State :=
  { s with dp := { s.dp with
      curOff := s.dp.curOff + s.dp.chunk.setWidth 16
      idx := s.dp.idx + s.dp.chunk.setWidth 16
      rem := s.dp.rem - s.dp.chunk.setWidth 16 } }

/-- `W_END` done: advance; the next chunk, or complete with `OK`. -/
def wEndDone (s : State) : Host.Outcome State Fault Refusal :=
  if (advanceChunk s).dp.rem = 0 then .next (complete .ok (advanceChunk s))
  else
    match s.record with
    | none => .fault .noRecord
    | some r => .next { chunkSetup r (advanceChunk s) with phase := .wBegin }

end Sys2Proof.Machine
end

