-- ==== Sys2Proof/Machine/Dispatch.lean ====
section
/-! DEFINITION. exec: one arm per host command (10_state.md R20). -/

namespace Sys2Proof.Machine

def exec (i : Instr) (s : State) : Host.Outcome State Fault Refusal :=
  match i with
  | .createHandle base density => Sys2Proof.Machine.execCreateHandle base density s
  | .write offset length => Sys2Proof.Machine.execWrite offset length s
  | .read offset length => Sys2Proof.Machine.execRead offset length s

end Sys2Proof.Machine
end

