-- ==== Sys2Proof/Machine/Transport.lean ====
section
/-! DEFINITION. The transport as the engine sees it (43_transport.md R160 to R164): each operation issued is answered done,
answered fail, or not answered; and the reference device behind it (20_memory.md R60 to R64, environment). -/

namespace Sys2Proof.Machine

/-! ## The reference device (environment) -/

/-- `MEM[a]` (R60): a free value where nothing has been written (log 9). -/
def Device.byteAt (d : Device) (a : Nat) : Byte := (Memory.get? d.mem a).getD (Config.initialMem d.epoch a)

/-- `(b & 0xFE & ~(FOLD_MASK >> 7)) = strap` and `WCYCLE = 0` (R61). -/
def Device.selected (r : Rec) (b : Byte) (d : Device) : Bool :=
  decide (d.wcycle = 0) && decide (b &&& 0xFE#8 &&& ~~~((r.foldMask >>> 7).setWidth 8) = d.strap)

/-- On selection (R61): reads where `b[0] = 1`; else address bytes, with `hi = (b >> 1) & ((1 << FOLD_BITS) - 1)`. -/
def Device.select (r : Rec) (b : Byte) (d : Device) : Device :=
  { d with session :=
      if b.getLsbD 0 then .reading
      else .address ((b >>> 1).toNat % 2 ^ r.foldBits.toNat) none }

/-- An address byte (R62). -/
def Device.takeAddress (r : Rec) (hi : Nat) (first : Option Byte) (a : Byte) (d : Device) : Device :=
  match first with
  | none =>
    if r.addrBytes = 2 then { d with session := .address hi (some a) }
    else { d with ac := hi * 256 + a.toNat, session := .data false }
  | some a1 => { d with ac := (a1.toNat * 256 + a.toNat) % capOf r, session := .data false }

/-- `AC <- (AC & ~(PAGE_SIZE-1)) | ((AC + 1) & (PAGE_SIZE-1))` (R63): the counter wraps inside the page. -/
def Device.wrapInPage (r : Rec) (ac : Nat) : Nat := ac / pageOf r * pageOf r + (ac + 1) % pageOf r

/-- A data byte of a write (R63): `MEM[AC] <- v` and the counter moves. What it replaced is kept until the chunk is closed
(log 11). Past the end of the array no rule says which byte changes: every byte becomes free (log 12). -/
def Device.store (r : Rec) (v : Byte) (d : Device) : Device :=
  if d.ac < capOf r then
    { d with
      mem := Memory.put d.mem d.ac v
      undo := (d.ac, Memory.get? d.mem d.ac) :: d.undo
      ac := Device.wrapInPage r d.ac
      session := .data true }
  else
    { d with
      mem := []
      undo := []
      epoch := d.epoch + 1
      ac := Device.wrapInPage r d.ac
      session := .data true }

/-- The byte a read returns (R64): `MEM[AC]`, and past the end of the array a free value (log 12). -/
def Device.readValue (r : Rec) (d : Device) : Byte :=
  if d.ac < capOf r then d.byteAt d.ac else Config.pastEndByte d.draws d.ac

/-- What the counter holds of a number: on density 1024 "`AC` bit 16 is 0" (R62; 93_implementation_defined.md G6). -/
def heldAc (r : Rec) (n : Nat) : Nat := if r.density = 1024 then n % 65536 else n

/-- `AC <- AC + 1`, "without regard to pages" (R64). Where that would pass `CAP - 1` the spec leaves `AC` undefined
(R64, 93_implementation_defined.md U16), and the model takes a free value with no bound but `heldAc`: the model's choice, log 12. -/
def Device.nextAc (r : Rec) (d : Device) : Nat :=
  heldAc r (if d.ac + 1 < capOf r then d.ac + 1 else Config.counterPastEnd d.draws d.ac)

/-- A read (R64): the counter moves; after `RN` the device releases the bus, and no further read is answered. -/
def Device.afterRead (r : Rec) (next : DevSession) (d : Device) : Device :=
  { d with ac := d.nextAc r, session := next, draws := d.draws + 1 }

/-- `E` (R63): after a data byte the write cycle starts; after none (the dummy write) `AC` keeps the address just set;
after part of an address `AC` is a free value (log 12). -/
def Device.close (r : Rec) (d : Device) : Device :=
  match d.session with
  | .data true =>
    { d with session := .idle, undo := [], wcycle := Config.writeCycleTime d.draws + 1, draws := d.draws + 1 }
  | .address _ (some _) =>
    { d with session := .idle, ac := heldAc r (Config.partialAddress d.draws % capOf r), draws := d.draws + 1 }
  | _ => { d with session := .idle }

/-- What the device does with an operation: it does not answer, it answers with a byte, or no rule gives it a reaction. -/
inductive DeviceReply where
  | silent
  | answered (v : Byte) (d : Device)
  | outside
deriving DecidableEq, Repr

/-- The reference device's reaction to each operation (R61 to R64). -/
def Device.react (r : Rec) (o : TOp) (d : Device) : DeviceReply :=
  match o with
  | .beginSession b => if d.selected r b then .answered 0 (d.select r b) else .silent
  | .writeByte v =>
    match d.session with
    | .address hi first => .answered 0 (d.takeAddress r hi first v)
    | .data _ => .answered 0 (d.store r v)
    | .idle => .outside
    | .reading => .outside
    | .released => .outside
  | .readByteAck =>
    match d.session with
    | .reading => .answered (d.readValue r) (d.afterRead r .reading)
    | _ => .outside
  | .readByteNak =>
    match d.session with
    | .reading => .answered (d.readValue r) (d.afterRead r .released)
    | _ => .outside
  | .endSession =>
    match d.session with
    | .idle => .outside
    | _ => .answered 0 (d.close r)

/-- A device whose density is not legal is no device of R60: nothing answers (R230). -/
def Device.respond (o : TOp) (d : Device) : DeviceReply :=
  match dispatch d.density with
  | none => .silent
  | some r => d.react r o

/-- Puts back what a chunk's bytes replaced, newest first, where the free value says they did not land (log 11). -/
def Device.unwind (draw : Nat) : List (Nat × Option Byte) → Memory → Memory
  | [], m => m
  | (a, old) :: rest, m =>
    Device.unwind draw rest (if Config.chunkByteLands draw a then m else Memory.restore m a old)

/-- The data byte a failed operation carried may have reached the device (93_implementation_defined.md U8). -/
def Device.mayStore (o : Option TOp) (d : Device) : Device :=
  match dispatch d.density, o, d.session with
  | some r, some (.writeByte v), .data _ => d.store r v
  | _, _, _ => d

/-- Whether a session that is cut short has a data byte in flight: one stored, or one the cut operation carries. Only then is
there a chunk whose bytes U8 leaves open. -/
def Device.dataInFlight (o : Option TOp) (d : Device) : Bool :=
  match d.session, o with
  | .data _, some (.writeByte _) => true
  | .data stored, _ => stored
  | _, _ => false

/-- The chunk in flight is cut short (93_implementation_defined.md U8): each of its bytes is either old or new, and the write
cycle may have started (log 11). Chunks closed before keep their bytes. -/
def Device.cutChunk (o : Option TOp) (d : Device) : Device :=
  let e := d.mayStore o
  { e with
    mem := Device.unwind e.draws e.undo e.mem
    undo := []
    wcycle := Config.writeCycleTime e.draws
    draws := e.draws + 1 }

/-- Whether the cut operation is one that moves the counter (R62 to R64), so that the counter is open: it may have been carried
out (log 11). -/
def Device.counterInFlight (r : Rec) (o : Option TOp) (d : Device) : Bool :=
  match d.session, o with
  | .address _ none, some (.writeByte _) => decide (r.addrBytes = 1)
  | .address _ (some _), some (.writeByte _) => true
  | .data _, some (.writeByte _) => true
  | .reading, some .readByteAck => true
  | .reading, some .readByteNak => true
  | _, _ => false

/-- The counter after a cut: a free value below `CAP` where it is open (log 11), else as it was. -/
def Device.cutCounter (o : Option TOp) (d : Device) : Device :=
  match dispatch d.density with
  | none => d
  | some r =>
    if d.counterInFlight r o then
      { d with ac := heldAc r (Config.partialAddress d.draws % capOf r), draws := d.draws + 1 }
    else d

/-- A session cut short, with the operation that failed or was dropped. Where no data byte is in flight (a read session, a dummy
write, a `T.begin` still waiting, no session) `MEM` and `WCYCLE` stay as they are, since R63 starts the write cycle after a
data byte only. -/
def Device.cut (o : Option TOp) (d : Device) : Device := (if d.dataInFlight o then d.cutChunk o else d).cutCounter o

/-- A session cut short by a failure or a reset: over where the transport has released the bus (`ended`), else as it was,
until the host restores the transport (log 8, log 11). -/
def Device.abort (o : Option TOp) (ended : Bool) (d : Device) : Device :=
  if ended then { d.cut o with session := .idle, undo := [] } else d.cut o

/-- Time passes for a write cycle: one step less to last (log 10). -/
def Device.tick (d : Device) : Device := { d with wcycle := d.wcycle - 1 }

/-! ## The transport's answer -/

/-- `T.begin` is the one operation that opens a session. -/
def TOp.isBegin : TOp → Bool
  | .beginSession _ => true
  | .writeByte _ => false
  | .readByteAck => false
  | .readByteNak => false
  | .endSession => false

/-- Whether a session is open after an operation is answered *done* (43_transport.md R165, R169). -/
def sessionAfter (o : TOp) (isOpen : Bool) : Bool :=
  match o with
  | .beginSession _ => true
  | .writeByte _ => isOpen
  | .readByteAck => isOpen
  | .readByteNak => isOpen
  | .endSession => false

/-- The environment after an operation is answered *done*. -/
def Env.afterDone (o : TOp) (dev : Option Device) (e : Env) : Env :=
  { e with sessionOpen := sessionAfter o e.sessionOpen, device := dev }

/-- The environment after an operation is answered *fail* (43_transport.md R164): a failed begin opened no session
(95_test_vectors.md V319, V334); else "the session is as the transport left it" (60_exceptions.md R188, log 8). -/
def Env.afterFail (o : TOp) (leftOpen : Bool) (e : Env) : Env :=
  if o.isBegin then e
  else { e with sessionOpen := leftOpen, device := e.device.map (Device.abort (some o) !leftOpen) }

/-- The environment after a reset (70_reset_and_hazards.md R210, R211): unchanged, unless it came during a command with an
operation outstanding or a session open; then the transport has left the session open or not, and what was in flight is cut
short (log 8, log 11). A device whose session stays open, with nothing in flight, is untouched. -/
def Env.afterReset (busy : Bool) (o : Option TOp) (leftOpen : Bool) (e : Env) : Env :=
  if busy && (e.sessionOpen || o.isSome) then
    { e with sessionOpen := leftOpen, device := e.device.map (Device.abort o !leftOpen) }
  else e

/-- The three outcomes of an issued operation (43_transport.md R161), and the operation no contract covers. -/
inductive Reply where
  | waiting
  | done (rdata : Byte) (e : Env)
  | failed (e : Env)
  | refused (r : Refusal)
deriving DecidableEq, Repr

/-- The transport's answer in this step: a *fail* the sample gives; else the device's answer where one is attached; else the
sample's (log 10). -/
def transportReply (p : Sample) (o : TOp) (e : Env) : Reply :=
  match p.answer, e.device with
  | some .fail, _ => .failed (e.afterFail o p.leftOpen)
  | some (.done v), none => .done v (e.afterDone o none)
  | none, none => .waiting
  | _, some d =>
    match d.respond o with
    | .silent => .waiting
    | .answered v d' => .done v (e.afterDone o (some d'))
    | .outside => .refused .operationOutsideContract

end Sys2Proof.Machine
end

