-- ==== Sys2Proof/Machine/Sequencer.lean ====
section
/-! DEFINITION. The sequencer's steps outside IDLE (10_state.md R21, R22, R24, R25), and what every step does with the inputs
before the engine acts. -/

namespace Sys2Proof.Machine

/-! ## Inputs -/

/-- The host restores the transport to idle in this step: a session left open ends (70_reset_and_hazards.md R227; only between
commands, log 8). -/
def State.restored (s : State) : Bool := s.env.sessionOpen && s.pins.restore && decide (s.phase = .idle)

/-- What the outside world does at the start of a step (log 3): the sample is taken off the list, the host's bytes are placed,
a restored transport is idle and the device's session over (log 8, log 11), the device's write cycle goes on; the response and
buffer strobes of the step before fall (log 5). -/
def State.sample (s : State) : State :=
  { s with
    rsp := none
    buf := { s.buf with re := false, we := false }
    env := { s.env with
      inputs := s.env.inputs.tail
      wbuf := Memory.putAll s.env.wbuf s.pins.wbuf
      rbuf := Memory.putAll s.env.rbuf s.pins.rbuf
      sessionOpen := s.env.sessionOpen && !s.restored
      device := s.env.device.map fun d => if s.restored then d.tick.abort none true else d.tick } }

/-- A step in which `rst` is asserted (70_reset_and_hazards.md R210, R211). -/
def resetStep (p : Sample) (s : State) : State :=
  { s.hardReset with env := s.env.afterReset s.busy s.outstanding p.leftOpen }

/-! ## Issuing an operation -/

/-- The operation the current phase issues (10_state.md R16, R21, R22). -/
def State.nextOp (s : State) : Option TOp :=
  match s.phase with
  | .idle => none
  | .wBegin => some (.beginSession s.dp.busb)
  | .wAhi => some (.writeByte (hiByte s.dp.curOff))
  | .wAlo => some (.writeByte (loByte s.dp.curOff))
  | .wData => some (.writeByte (s.wbufAt (s.dp.idx + s.dp.k.setWidth 16).toNat))
  | .wEnd => some .endSession
  | .rBeginW => some (.beginSession s.dp.busb)
  | .rAhi => some (.writeByte (hiByte s.dp.curOff))
  | .rAlo => some (.writeByte (loByte s.dp.curOff))
  | .rEndW => some .endSession
  | .rBeginR => some (.beginSession (s.dp.busb ||| 0x01#8))
  | .rData => some (if 1#16 < s.dp.rem then .readByteAck else .readByteNak)
  | .rEnd => some .endSession

/-- The `WBUF` access of the step that issues an operation: only `W_DATA` has one, `WBUF[IDX + K]` (R21; R28; log 19). -/
def State.fetchData (s : State) : State :=
  if s.phase = .wData then s.wbufRead (s.dp.idx + s.dp.k.setWidth 16) else s

/-- Issues an operation (30_encoding.md R82): `t_req` rises with it, and it joins the trace. -/
def State.drive (o : TOp) (s : State) : State :=
  { s with outstanding := some o, log := s.log ++ [.op o] }

/-! ## The answer -/

/-- The assignments of the phase whose operation is done (R21, R22). -/
def onDone (v : Byte) (s : State) : Host.Outcome State Fault Refusal :=
  match s.phase with
  | .idle => .next s
  | .wBegin => wBeginDone s
  | .wAhi => wAhiDone s
  | .wAlo => wAloDone s
  | .wData => wDataDone s
  | .wEnd => wEndDone s
  | .rBeginW => rBeginWDone s
  | .rAhi => rAhiDone s
  | .rAlo => rAloDone s
  | .rEndW => rEndWDone s
  | .rBeginR => rBeginRDone s
  | .rData => rDataDone v s
  | .rEnd => rEndDone s

/-- The answer to the outstanding operation: done (R21, R22); fail, which completes the command with `ERR_TRANSPORT` and
nothing else (R24); none, and the sequencer waits with `t_req` high (R25, log 6). -/
def settle (p : Sample) (o : TOp) (s : State) : Host.Outcome State Fault Refusal :=
  match transportReply p o s.env with
  | .waiting => .next s
  | .done v e => onDone v { s with outstanding := none, env := e }
  | .failed e => .next (raise .errTransport { s with outstanding := none, env := e })
  | .refused r => .refused r

/-- One step outside IDLE: the operation of the phase is issued unless it is outstanding already, and answered or not. A
`T.begin` inside an open session is outside the contract (70_reset_and_hazards.md R227, log 7). -/
def sequencerStep (p : Sample) (s : State) : Host.Outcome State Fault Refusal :=
  match s.outstanding with
  | some o => settle p o s
  | none =>
    match s.nextOp with
    | none => .next s
    | some o =>
      if o.isBegin && s.env.sessionOpen then .refused .beginInOpenSession
      else settle p o (s.fetchData.drive o)

end Sys2Proof.Machine
end

