-- ==== Sys2Proof/Machine/Step.lean ====
section
/-! DEFINITION. One step of the machine (10_state.md R20 to R25; 70_reset_and_hazards.md R210). -/

namespace Sys2Proof.Machine

/-- The acceptance of a command word (R20; 60_exceptions.md R186): latched, then decoded; a reserved word completes
`ERR_ILLEGAL_CMD` (30_encoding.md R75), a command runs. -/
def acceptStep (w : CmdWord) (s : State) : Host.Outcome State Fault Refusal :=
  match decode w with
  | .ok i => exec i (s.accept w)
  | .error _ => .next (raise .errIllegalCmd (s.accept w))

/-- What the engine does in a step with the sample `p`, once the inputs are taken: reset first; in IDLE the acceptance of
the word offered, if any; else one sequencer step. -/
def engineStep (p : Sample) (s : State) : Host.Outcome State Fault Refusal :=
  if p.rst then .next (resetStep p s)
  else if s.phase = .idle then
    match p.cmd with
    | some w => acceptStep w s
    | none => .next s
  else sequencerStep p s

/-- One step. -/
def step (s : State) : Host.Outcome State Fault Refusal := engineStep s.pins s.sample

/-- A sample that offers a command word and nothing else. -/
def Sample.offering (w : CmdWord) : Sample := { Sample.quiet with cmd := some w }

/-- The state in which the host offers the word `w` to an idle engine in the very next step (log 4): the engine fetches at no
program counter, it accepts what the command port offers while `PHASE = IDLE` (30_encoding.md R70). -/
def State.withFetchWord (s : State) (nbits w : Nat) : State :=
  { s with
    phase := .idle
    busy := false
    outstanding := none
    env := { s.env with inputs := Sample.offering (BitVec.ofNat 34 (w % 2 ^ nbits)) :: s.env.inputs } }

end Sys2Proof.Machine
end

