-- ==== Sys2Proof/Machine/Pseudocode.lean ====
section
/-! DEFINITION. The commands in big steps: the events the pseudocode of 41_write.md R121 and 42_read.md R141 produces, with
unbounded integers in place of the sequencer's registers. 10_state.md R26 says the sequencer agrees with it. -/

namespace Sys2Proof.Machine

/-! ## WRITE (41_write.md R121) -/

/-- The chunks of a transfer, (start offset, size) each, with `fuel` at least the remaining length:
`CHUNK <- min(PAGE_SIZE - CUR_OFF mod PAGE_SIZE, REM)`. -/
def chunksFrom (page : Nat) : (fuel start rem : Nat) → List (Nat × Nat)
  | 0, _, _ => []
  | fuel + 1, start, rem =>
    if rem = 0 then []
    else
      (start, min (page - start % page) rem) ::
        chunksFrom page fuel (start + min (page - start % page) rem) (rem - min (page - start % page) rem)

/-- The chunks of `WRITE offset, length` at a page size. -/
def chunks (page off len : Nat) : List (Nat × Nat) := chunksFrom page len off len

/-- The data bytes of a chunk: each is read from `WBUF` and sent. -/
def dataEvents (s : State) (idx : Nat) : (size : Nat) → List Event
  | 0 => []
  | size + 1 =>
    .wbufRead (BitVec.ofNat 16 idx) (s.wbufAt idx) :: .op (.writeByte (s.wbufAt idx)) :: dataEvents s (idx + 1) size

/-- One chunk: `T.begin`, the address byte(s), the data, `T.end`. -/
def chunkEvents (r : Rec) (s : State) (start idx size : Nat) : List Event :=
  .op (.beginSession (busAddr r s.base (BitVec.ofNat 16 start))) ::
    ((addressBytes r (BitVec.ofNat 16 start)).map (fun b => .op (.writeByte b))
      ++ dataEvents s idx size ++ [.op .endSession])

/-- The chunks of a transfer one after another, the buffer cursor going on. -/
def chunkListEvents (r : Rec) (s : State) : (idx : Nat) → List (Nat × Nat) → List Event
  | _, [] => []
  | idx, (start, size) :: rest => chunkEvents r s start idx size ++ chunkListEvents r s (idx + size) rest

/-- The events of an accepted `WRITE` whose operations are all answered *done*. -/
def writeEvents (r : Rec) (s : State) (off len : Nat) : List Event :=
  chunkListEvents r s 0 (chunks (pageOf r) off len)

/-! ## READ (42_read.md R141) -/

/-- The read operations and what they store, for the values the transport returns: all but the last acknowledged. -/
def readData : (idx : Nat) → List Byte → List Event
  | _, [] => []
  | idx, [v] => [.op .readByteNak, .rbufWrite (BitVec.ofNat 16 idx) v]
  | idx, v :: rest => .op .readByteAck :: .rbufWrite (BitVec.ofNat 16 idx) v :: readData (idx + 1) rest

/-- The events of an accepted `READ` of as many bytes as `values` whose operations are all answered *done*. -/
def readEvents (r : Rec) (s : State) (off : Nat) (values : List Byte) : List Event :=
  .op (.beginSession (busAddr r s.base (BitVec.ofNat 16 off))) ::
    ((addressBytes r (BitVec.ofNat 16 off)).map (fun b => .op (.writeByte b))
      ++ [.op .endSession, .op (.beginSession (busAddr r s.base (BitVec.ofNat 16 off) ||| 0x01#8))]
      ++ readData 0 values ++ [.op .endSession])

/-! ## Traces -/

/-- The transport trace (00_scope.md R7) in a list of events. -/
def opsOf : List Event → List TOp
  | [] => []
  | .op o :: rest => o :: opsOf rest
  | .wbufRead _ _ :: rest => opsOf rest
  | .rbufWrite _ _ :: rest => opsOf rest
  | .response _ :: rest => opsOf rest

/-- The `RBUF` writes in a list of events, index and byte. -/
def storesOf : List Event → List (Offset × Byte)
  | [] => []
  | .op _ :: rest => storesOf rest
  | .wbufRead _ _ :: rest => storesOf rest
  | .rbufWrite i v :: rest => (i, v) :: storesOf rest
  | .response _ :: rest => storesOf rest

/-- The events up to the `k`-th transport operation (from 0), that one included: what a command whose `k`-th operation fails
has done (10_state.md R24). -/
def throughOp : (k : Nat) → List Event → List Event
  | _, [] => []
  | 0, .op o :: _ => [.op o]
  | k + 1, .op o :: rest => .op o :: throughOp k rest
  | k, .wbufRead i v :: rest => .wbufRead i v :: throughOp k rest
  | k, .rbufWrite i v :: rest => .rbufWrite i v :: throughOp k rest
  | k, .response st :: rest => .response st :: throughOp k rest

/-- What session a trace has open: none, a write-mode one, a read-mode one. -/
inductive BusMode where
  | closed | writing | reading
deriving DecidableEq, Repr

/-- One operation of the trace grammar (43_transport.md R170): where it may stand, and the session after it. -/
def BusMode.next : BusMode → TOp → Option BusMode
  | .closed, .beginSession b => some (if b.getLsbD 0 then .reading else .writing)
  | .writing, .writeByte _ => some .writing
  | .reading, .readByteAck => some .reading
  | .reading, .readByteNak => some .reading
  | .writing, .endSession => some .closed
  | .reading, .endSession => some .closed
  | _, _ => none

/-- The session a trace leaves open, if every operation stands where it may. -/
def BusMode.run : BusMode → List TOp → Option BusMode
  | m, [] => some m
  | m, o :: rest =>
    match m.next o with
    | some m' => m'.run rest
    | none => none

end Sys2Proof.Machine
end

