-- ==== Sys2Proof/Machine/Run.lean ====
section
/-! DEFINITION. Runs of several steps, and the input samples a run is made of. -/

namespace Sys2Proof.Machine

/-- `n` steps, stopping at the first fault or refusal. -/
def runFor : Nat → State → Host.Outcome State Fault Refusal
  | 0, s => .next s
  | n + 1, s =>
    match step s with
    | .next t => runFor n t
    | .fault f => .fault f
    | .refused r => .refused r

/-- A step in which the transport answers *done* with `t_rdata = v` and the host does nothing. -/
def Sample.done (v : Byte) : Sample := { Sample.quiet with answer := some (.done v) }

/-- A step in which the transport answers *fail* and leaves the session open or not. -/
def Sample.failing (leftOpen : Bool) : Sample :=
  { Sample.quiet with answer := some .fail, leftOpen := leftOpen }

/-- A sample that leaves a running command alone: no reset, no *fail*, no byte placed in the buffers. The transport may answer
in it or not, the command port may show anything (70_reset_and_hazards.md R225). -/
abbrev Sample.harmless (p : Sample) : Prop :=
  p.rst = false ∧ p.answer ≠ some .fail ∧ p.wbuf = [] ∧ p.rbuf = []

/-- The byte with which a sample answers *done*, if it does. -/
def Sample.reply (p : Sample) : Option Byte :=
  match p.answer with
  | some (.done v) => some v
  | some .fail => none
  | none => none

/-- The *done* answers in a list of samples, first to last; the steps in which the transport is silent give none. -/
def answersOf (ps : List Sample) : List Byte := ps.filterMap Sample.reply

end Sys2Proof.Machine
end

