-- ==== Sys2Proof/Safety.lean ====
section
/-! DEFINITION. What holds of every state a run reaches: the range invariants of 10_state.md R15, the flags' meaning
(R11, R16, R17), the canonical form of the memories, and the session the phase belongs to (43_transport.md R170). -/

namespace Sys2Proof.Machine

/-- The phases of a `WRITE` (10_state.md R16). -/
def Phase.isWrite : Phase → Bool
  | .wBegin | .wAhi | .wAlo | .wData | .wEnd => true
  | .idle | .rBeginW | .rAhi | .rAlo | .rEndW | .rBeginR | .rData | .rEnd => false

/-- The phases inside an open session: its `T.begin` is done and its `T.end` is not. -/
def Phase.inSession : Phase → Bool
  | .wAhi | .wAlo | .wData | .wEnd | .rAhi | .rAlo | .rEndW | .rData | .rEnd => true
  | .idle | .wBegin | .rBeginW | .rBeginR => false

/-- The phases of a read-mode session. -/
def Phase.inReadSession : Phase → Bool
  | .rData | .rEnd => true
  | .idle | .wBegin | .wAhi | .wAlo | .wData | .wEnd | .rBeginW | .rAhi | .rAlo | .rEndW | .rBeginR => false

/-- What a device in an open session expects in a phase: reads in `R_DATA`, the end in `R_END` (after `RN`), bytes in a
write-mode session. -/
def DevSession.fits (ph : Phase) : DevSession → Bool
  | .idle => false
  | .reading => decide (ph = .rData)
  | .released => decide (ph = .rEnd)
  | .address _ _ => !ph.inReadSession
  | .data _ => !ph.inReadSession

/-- The cursors of a running transfer (R15): what is done and what remains make up the request, which lies in reach. -/
structure Cursors (r : Rec) (s : State) : Prop where
  inReach : s.latch.cOff.toNat + s.latch.cLen.toNat ≤ reachOf r
  parts : s.dp.idx.toNat + s.dp.rem.toNat = s.latch.cLen.toNat
  bus : s.dp.busb = busAddr r s.base s.dp.curOff

/-- The registers of a running `WRITE` (R14, R15, R21). -/
structure WriteInv (r : Rec) (s : State) : Prop extends Cursors r s where
  opcode : s.latch.op = 0b10#2
  curOff : s.dp.curOff.toNat = s.latch.cOff.toNat + s.dp.idx.toNat
  left : s.dp.rem ≠ 0
  pos : s.dp.pos = pagePos r s.dp.curOff
  chunk : s.dp.chunk = chunkSize r s.dp.pos s.dp.rem
  high : s.phase = .wAhi → r.addrBytes = 2
  k : match s.phase with
    | .wData => s.dp.k < s.dp.chunk
    | .wEnd => s.dp.k = s.dp.chunk
    | _ => s.dp.k = 0

/-- The registers of a running `READ` (R14, R22). -/
structure ReadInv (r : Rec) (s : State) : Prop extends Cursors r s where
  opcode : s.latch.op = 0b11#2
  curOff : s.dp.curOff = s.latch.cOff
  high : s.phase = .rAhi → r.addrBytes = 2
  left : match s.phase with
    | .rEnd => s.dp.rem = 0
    | .rData => s.dp.rem ≠ 0
    | _ => s.dp.rem ≠ 0 ∧ s.dp.idx = 0

/-- The operation outstanding is the phase's; in `W_DATA` it carries the byte read when it was issued. -/
def OutstandingOk (s : State) (o : TOp) : Prop :=
  if s.phase = .wData then ∃ v, o = .writeByte v else s.nextOp = some o

/-- The invariant of the machine. -/
structure Inv (s : State) : Prop where
  /-- R11: `HVALID = 1` implies `DENSITY` is in the legal set. -/
  legal : s.handle.hvalid = true → (dispatch s.handle.density).isSome = true
  /-- R17: `BUSY = 1` exactly when `PHASE != IDLE`. -/
  busy : s.busy = decide (s.phase ≠ .idle)
  wbufWf : Memory.wf s.env.wbuf
  rbufWf : Memory.wf s.env.rbuf
  memWf : ∀ d, s.env.device = some d → Memory.wf d.mem
  idleQuiet : s.phase = .idle → s.outstanding = none
  /-- R15 for a running transfer, under a valid handle. -/
  running : s.phase ≠ .idle → s.handle.hvalid = true ∧
    ∃ r, s.record = some r ∧ (if s.phase.isWrite then WriteInv r s else ReadInv r s)
  issued : ∀ o, s.outstanding = some o → OutstandingOk s o
  /-- R170: the session is open in the phases that belong to it, and not while a `T.begin` waits. -/
  session : s.phase.inSession = true → s.env.sessionOpen = true
  noSession : s.phase.inSession = false → s.outstanding.isSome = true → s.env.sessionOpen = false
  betweenSessions : s.phase = .rBeginR → s.env.sessionOpen = false
  /-- 20_memory.md R62: on density 1024 bit 16 of `AC` is 0. -/
  counter : ∀ d, s.env.device = some d → d.density = 1024 → d.ac < 65536
  deviceSession : s.phase.inSession = true → ∀ d, s.env.device = some d →
    d.session.fits s.phase = true

/-! ## What happens at the transport port in a step, for the statements about it -/

/-- The operation whose answer the step waits for: the outstanding one, or else the one the phase issues in this step. -/
def State.pendingOp (s : State) : Option TOp :=
  match s.outstanding with
  | some o => some o
  | none => s.sample.nextOp

/-- The events with which a step issues an operation: none where it is outstanding already. -/
def State.issuing (s : State) (events : List Event) : List Event := if s.outstanding = none then events else []

/-- The contract of 43_transport.md covers the operation: no `T.begin` is issued inside an open session (R227). -/
abbrev State.contractHolds (s : State) : Prop :=
  s.outstanding = none → (s.phase = .wBegin ∨ s.phase = .rBeginW ∨ s.phase = .rBeginR) → s.env.sessionOpen = false

/-- The transport answers the operation `o` of this step *done* with the byte `v`, the sample or the attached device, which
leaves the environment `e`; there is no reset. -/
abbrev State.answeredDone (s : State) (o : TOp) (v : Byte) (e : Env) : Prop :=
  s.pins.rst = false ∧ s.pendingOp = some o ∧ transportReply s.pins o s.sample.env = .done v e

/-- The transport answers *fail* in this step; there is no reset. -/
abbrev State.answeredFail (s : State) : Prop := s.pins.rst = false ∧ s.pins.answer = some .fail

/-- Nobody answers in this step: no device and no answer in the sample, or a device that does not acknowledge. -/
def State.unanswered (s : State) : Prop :=
  s.pins.rst = false ∧
    ((s.env.device = none ∧ s.pins.answer = none) ∨
      ∃ d o, s.env.device = some d ∧ s.pins.answer ≠ some .fail ∧ s.pendingOp = some o ∧ d.tick.respond o = .silent)

/-- The host offers the word `w` to an idle engine in this step; there is no reset (30_encoding.md R70). -/
abbrev State.offers (s : State) (w : CmdWord) : Prop :=
  s.pins.rst = false ∧ s.phase = .idle ∧ s.pins.cmd = some w

/-- A safe step: it answers a next state, or the model declines at a `T.begin` the transport contract does not cover, which
needs a session left open by an earlier failure or reset (70_reset_and_hazards.md R227). -/
def SafeStep (s : State) : Prop :=
  (∃ t, step s = .next t) ∨
    (step s = .refused .beginInOpenSession ∧ s.env.sessionOpen = true ∧
      (s.phase = .wBegin ∨ s.phase = .rBeginW))

end Sys2Proof.Machine
end

