-- ==== Sys2Proof/Certificates/Slice0/Obligations.lean ====
section
/-! DEFINITION. The statements for the provers. Each docstring names the rule of spec/ it formalises. -/

open Sys2Proof Sys2Proof.Machine

/-! ## Encoding -/

/-- Every instruction survives encoding: decode of encode is the instruction itself (30_encoding.md R72, R73). -/
def Obligations.DecodeOfEncodeIsTheInstruction : Prop :=
  ∀ i : Instr, i.wellFormed = true → decode (encode i) = .ok i

/-- The other direction: a word that decodes is the encoding of what it decodes to (30_encoding.md R72, R74). -/
def Obligations.EncodeOfDecodeIsTheWord : Prop :=
  ∀ (w : CmdWord) (i : Instr), decode w = .ok i → encode i = w

/-- 30_encoding.md R74: the decoder is total, each word falls under exactly one row, and the rows are the table's masks. -/
def Obligations.DecoderMatchesExactlyOneRow : Prop :=
  ∀ w : CmdWord,
    (CmdWord.op w = 0b00#2 → decode w = .error .reservedOpcode) ∧
    (CmdWord.op w = 0b01#2 → CmdWord.rsvd w = 0#8 →
      decode w = .ok (.createHandle (CmdWord.base w) (CmdWord.low w))) ∧
    (CmdWord.op w = 0b01#2 → CmdWord.rsvd w ≠ 0#8 → decode w = .error .reservedField) ∧
    (CmdWord.op w = 0b10#2 → decode w = .ok (.write (CmdWord.offset w) (CmdWord.low w))) ∧
    (CmdWord.op w = 0b11#2 → decode w = .ok (.read (CmdWord.offset w) (CmdWord.low w))) ∧
    (w &&& 0x3FF000000#34 = 0x100000000#34 ↔ ∃ b d, decode w = .ok (.createHandle b d)) ∧
    (w &&& 0x300000000#34 = 0x200000000#34 ↔ ∃ o l, decode w = .ok (.write o l)) ∧
    (w &&& 0x300000000#34 = 0x300000000#34 ↔ ∃ o l, decode w = .ok (.read o l))

/-- Words written out in the spec (30_encoding.md R77; 95_test_vectors.md V310) decode to what the spec says. -/
def Obligations.SpecWordsDecode : Prop :=
  decode 0x100A00008#34 = .ok (.createHandle 0xA0 8) ∧
  decode 0x100A10010#34 = .ok (.createHandle 0xA1 16) ∧
  decode 0x200000014#34 = .ok (.write 0x0000 20) ∧
  decode 0x306AB0002#34 = .ok (.read 0x06AB 2) ∧
  decode 0x101A00008#34 = .error .reservedField ∧
  decode 0x0FFFFFFFF#34 = .error .reservedOpcode

/-- The assembler (30_encoding.md R77): an operand that fits its field is kept as it is, one that does not is rejected. -/
def Obligations.AssemblerKeepsFittingOperandsOnly : Prop :=
  ∀ c : AsmCmd, c.toInstr.map Instr.toAsm = if c.wellFormed then some c else none

/-! ## Dispatch and address translation -/

/-- 30_encoding.md R78: of the 65536 density operands exactly the powers of two 2^0 to 2^10 select a record, and every other
value is a configuration error. -/
def Obligations.LegalDensitiesAreThePowersUpToTen : Prop :=
  (∀ d : BitVec 16, (∃ r, dispatch d = some r ∧ r.density = d) ↔ ∃ k, k ≤ 10 ∧ d.toNat = 2 ^ k) ∧
  (∀ (d : BitVec 16) (b : Byte) (s : State), (¬ ∃ k, k ≤ 10 ∧ d.toNat = 2 ^ k) →
    ∃ t, exec (.createHandle b d) s = .next t ∧ t.status = .errConfig)

/-- 40_dispatch_and_handle.md R103: the facts (a) to (f) about the dispatch table. -/
def Obligations.DispatchTableFacts : Prop :=
  (∀ d : BitVec 16, (dispatch d).isSome = true ↔ ∃ k, k ≤ 10 ∧ d.toNat = 2 ^ k) ∧
  (∀ (d : BitVec 16) (r : Rec), dispatch d = some r →
    (r.foldBits ≠ 0 ↔ d = 4 ∨ d = 8 ∨ d = 16) ∧
    (r.foldBits ≠ 0 → r.foldBits.toNat = Nat.log2 d.toNat - 1) ∧
    (r.addrBytes = 2 ↔ 32 ≤ d.toNat) ∧
    Nat.log2 (reachOf r) ≤ 8 * addrBytesOf r + r.foldBits.toNat ∧
    reachOf r ≤ 2 ^ (8 * addrBytesOf r + r.foldBits.toNat)) ∧
  (∀ (d d' : BitVec 16) (r r' : Rec), dispatch d = some r → dispatch d' = some r' → d.toNat ≤ d'.toNat →
    pageOf r ≤ pageOf r') ∧
  dispatchTable.map pageOf = [8, 8, 16, 16, 16, 32, 32, 64, 64, 128, 256] ∧
  dispatchTable.map (fun r => 8 * addrBytesOf r + r.foldBits.toNat) = [8, 8, 9, 10, 11, 16, 16, 16, 16, 16, 16] ∧
  dispatchTable.map (fun r => Nat.log2 (reachOf r)) = [7, 8, 9, 10, 11, 12, 13, 14, 15, 16, 16] ∧
  (∀ r, dispatch 1024 = some r → capOf r = 2 ^ 17 ∧ 8 * addrBytesOf r + r.foldBits.toNat = 16)

/-- The computed columns of the record (10_state.md section 2; 20_memory.md section 3): `CAP`, `REACH`, `FOLD_MASK`, `MODE`. -/
def Obligations.RecordColumnsAreComputed : Prop :=
  ∀ (d : BitVec 16) (r : Rec), dispatch d = some r →
    capOf r = d.toNat * 128 ∧ reachOf r = min (d.toNat * 128) 65536 ∧
    r.foldMask.toNat = (2 ^ r.foldBits.toNat - 1) * 256 ∧
    (r.mode = .M1 ↔ r.addrBytes = 1 ∧ r.foldBits = 0) ∧
    (r.mode = .M2 ↔ r.addrBytes = 1 ∧ r.foldBits ≠ 0) ∧
    (r.mode = .M3 ↔ r.addrBytes = 2 ∧ r.foldBits = 0)

/-- 30_encoding.md R80: the bus address byte bit by bit, for every family, in a write session (`rw` false) and a read
session (`rw` true). -/
def Obligations.BusAddressByteBitByBit : Prop :=
  ∀ (s : State) (d : BitVec 16) (r : Rec) (off : Offset) (rw : Bool), dispatch d = some r →
    let b := if rw then busAddr r s.base off ||| 0x01#8 else busAddr r s.base off
    b.getLsbD 0 = rw ∧
    b.getLsbD 1 = (s.base.getLsbD 1 || ((r.family = .B || r.family = .C || r.family = .D) && off.getLsbD 8)) ∧
    b.getLsbD 2 = (s.base.getLsbD 2 || ((r.family = .C || r.family = .D) && off.getLsbD 9)) ∧
    b.getLsbD 3 = (s.base.getLsbD 3 || (r.family = .D && off.getLsbD 10)) ∧
    b.getLsbD 4 = s.base.getLsbD 4 ∧ b.getLsbD 5 = s.base.getLsbD 5 ∧
    b.getLsbD 6 = s.base.getLsbD 6 ∧ b.getLsbD 7 = s.base.getLsbD 7

/-- 30_encoding.md R81: one memory-address byte for families A to D, two, high byte first, for E to H. -/
def Obligations.MemoryAddressBytesHighFirst : Prop :=
  ∀ (d : BitVec 16) (r : Rec) (off : Offset), dispatch d = some r →
    ((r.family = .A ∨ r.family = .B ∨ r.family = .C ∨ r.family = .D) →
      r.addrBytes = 1 ∧ addressBytes r off = [BitVec.ofNat 8 (off.toNat % 256)]) ∧
    ((r.family = .E ∨ r.family = .F ∨ r.family = .G ∨ r.family = .H) →
      r.addrBytes = 2 ∧
      addressBytes r off = [BitVec.ofNat 8 (off.toNat / 256), BitVec.ofNat 8 (off.toNat % 256)]) ∧
    (d = 32 → addressBytes r 0x0005 = [0x00, 0x05])

/-- 20_memory.md R52: the translation is injective on the offsets in reach, for a base with zeros where folded bits go; with the
rule's shape and its two examples. -/
def Obligations.TranslationIsInjective : Prop :=
  (∀ (d : BitVec 16) (r : Rec) (b : Byte) (off : Offset), dispatch d = some r →
    (r.addrBytes = 1 → xlate r b off = (b ||| fold r off, [loByte off])) ∧
    (r.addrBytes = 2 → xlate r b off = (b, [hiByte off, loByte off]))) ∧
  (∀ (d : BitVec 16) (r : Rec) (s : State) (x y : Offset), dispatch d = some r →
    s.base &&& (r.foldMask >>> 7).setWidth 8 = 0#8 → x.toNat < reachOf r → y.toNat < reachOf r →
    xlate r s.base x = xlate r s.base y → x = y) ∧
  (∀ r, dispatch 16 = some r → xlate r 0xA0 0x06AB = (0xAC, [0xAB])) ∧
  (∀ r, dispatch 64 = some r → xlate r 0xA0 0x1234 = (0xA0, [0x12, 0x34]))

/-- 20_memory.md R45: the page size is a power of two that divides 256 and the reach, so no page straddles a 256-byte block,
and the folded bits are those of the chunk's first byte throughout the chunk. -/
def Obligations.PagesStayInsideBlocks : Prop :=
  ∀ (d : BitVec 16) (r : Rec), dispatch d = some r →
    (∃ k, pageOf r = 2 ^ k) ∧ pageOf r ∣ 256 ∧ pageOf r ∣ reachOf r ∧
    ∀ (start size i : Nat), start % pageOf r + size ≤ pageOf r → i < size →
      (start + i) / 256 = start / 256 ∧
      ∀ b : Byte, busAddr r b (BitVec.ofNat 16 (start + i)) = busAddr r b (BitVec.ofNat 16 start)

/-! ## Acceptance -/

/-- A step of an idle engine offered a word that decodes is exec of the instruction, in the state in which the inputs are taken
and the word is latched with `BUSY = 1` (10_state.md section 7, R20). -/
def Obligations.StepRunsTheDecodedCommand : Prop :=
  ∀ (s : State) (w : CmdWord) (i : Instr), s.offers w → decode w = .ok i →
    step s = exec i (s.sample.accept w) ∧
    (s.sample.accept w).latch = { op := CmdWord.op w, cOff := CmdWord.offset w, cLen := CmdWord.low w } ∧
    (s.sample.accept w).busy = true

/-- An idle engine that is offered nothing waits: only the inputs move (10_state.md R16, R20). -/
def Obligations.IdleEngineWaits : Prop :=
  ∀ s : State, s.pins.rst = false → s.phase = .idle → s.pins.cmd = none → step s = .next s.sample

/-- 60_exceptions.md R183: a reserved word completes `ERR_ILLEGAL_CMD`; only the latch, `STATUS` and the response change. -/
def Obligations.ReservedWordChangesNothingElse : Prop :=
  ∀ (s : State) (w : CmdWord) (e : DecodeError), s.offers w → decode w = .error e →
    step s = .next { s.sample with
      latch := { op := CmdWord.op w, cOff := CmdWord.offset w, cLen := CmdWord.low w }
      busy := false
      status := .errIllegalCmd
      rsp := some .errIllegalCmd
      log := s.log ++ [.response .errIllegalCmd] }

/-- 40_dispatch_and_handle.md R110: every outcome of a `CREATE_HANDLE` word, with all that stays as it was. -/
def Obligations.CreateHandleWordOutcomes : Prop :=
  ∀ (s : State) (w : CmdWord), s.offers w → CmdWord.op w = 0b01#2 →
    ∃ t, step s = .next t ∧
      t = { s.sample with
        handle := t.handle
        latch := { op := CmdWord.op w, cOff := CmdWord.offset w, cLen := CmdWord.low w }
        busy := false
        status := t.status
        rsp := some t.status
        log := s.log ++ [.response t.status] } ∧
      (CmdWord.rsvd w ≠ 0#8 → t.status = .errIllegalCmd ∧ t.handle = s.handle) ∧
      (CmdWord.rsvd w = 0#8 → dispatch (CmdWord.low w) = none →
        t.status = .errConfig ∧ t.handle = { s.handle with hvalid := false }) ∧
      (CmdWord.rsvd w = 0#8 → (dispatch (CmdWord.low w)).isSome = true →
        t.status = .ok ∧ t.handle.hvalid = true ∧ t.base = CmdWord.base w &&& 0xFE#8 ∧
        t.handle.density = CmdWord.low w ∧ t.record = dispatch (CmdWord.low w))

/-- `CREATE_HANDLE` with a legal density completes: the handle is the operands', everything else is as a completion with `OK`
leaves it (40_dispatch_and_handle.md section 2). -/
def Obligations.CreateHandleCompletes : Prop :=
  ∀ (s : State) (base : Byte) (density : BitVec 16) (r : Rec), dispatch density = some r →
    ∃ t, exec (.createHandle base density) s = .next t ∧
      t = { s with
        handle := t.handle
        phase := .idle
        busy := false
        status := .ok
        rsp := some .ok
        log := s.log ++ [.response .ok] } ∧
      t.handle.hvalid = true ∧ t.base = base &&& 0xFE#8 ∧ t.handle.density = density ∧ t.record = some r

/-- 40_dispatch_and_handle.md R111: an illegal density completes `ERR_CONFIG` before any bus activity, and clears `HVALID`, so
that no transfer can follow until a handle is created. -/
def Obligations.IllegalDensityInvalidatesTheHandle : Prop :=
  ∀ (s : State) (base : Byte) (density : BitVec 16), dispatch density = none →
    ∃ t, exec (.createHandle base density) s = .next t ∧
      t = { s with
        handle := { s.handle with hvalid := false }
        phase := .idle
        busy := false
        status := .errConfig
        rsp := some .errConfig
        log := s.log ++ [.response .errConfig] } ∧
      ∀ (i : Instr) (off len : Offset), i = .write off len ∨ i = .read off len →
        ∃ u, exec i t = .next u ∧ u.status = .errNoHandle ∧ opsOf u.log = opsOf s.log

/-- 60_exceptions.md R185: a transfer with `HVALID = 0` completes `ERR_NO_HANDLE`: no operation, no buffer access. -/
def Obligations.TransferWithoutHandleFails : Prop :=
  ∀ (s : State) (i : Instr) (off len : Offset), i = .write off len ∨ i = .read off len →
    s.handle.hvalid = false →
    exec i s = .next { s with
      phase := .idle
      busy := false
      status := .errNoHandle
      rsp := some .errNoHandle
      log := s.log ++ [.response .errNoHandle] }

/-- 60_exceptions.md R184: a transfer past `REACH = min(DENSITY * 128, 65536)`, the sum not wrapping, completes `ERR_RANGE` with
nothing issued and nothing touched; one that ends at `REACH` passes. -/
def Obligations.TransferPastReachFails : Prop :=
  ∀ (s : State) (r : Rec) (i : Instr) (off len : Offset), i = .write off len ∨ i = .read off len →
    s.handle.hvalid = true → s.record = some r →
    (off.toNat + len.toNat > min (s.handle.density.toNat * 128) 65536 →
      exec i s = .next { s with
        phase := .idle
        busy := false
        status := .errRange
        rsp := some .errRange
        log := s.log ++ [.response .errRange] }) ∧
    (off.toNat + len.toNat ≤ min (s.handle.density.toNat * 128) 65536 →
      ∃ t, exec i s = .next t ∧ t.handle = s.handle ∧ (t.log = s.log ∨ t.log = s.log ++ [.response .ok]))

/-- A transfer of length 0 that passes the checks completes `OK` with nothing issued and nothing read or stored; the checks still
run first (10_state.md R20, 41_write.md R125, 42_read.md R145). That no datapath register changes either is the model's
reading of R20 and R125 over the pseudocode's assignments (log 15). -/
def Obligations.ZeroLengthTransferIsANoOp : Prop :=
  ∀ (s : State) (r : Rec) (i : Instr) (off : Offset), i = .write off 0 ∨ i = .read off 0 → s.record = some r →
    (s.handle.hvalid = true → off.toNat ≤ reachOf r →
      exec i s = .next { s with
        phase := .idle
        busy := false
        status := .ok
        rsp := some .ok
        log := s.log ++ [.response .ok] }) ∧
    (s.handle.hvalid = true → off.toNat > reachOf r → ∃ t, exec i s = .next t ∧ t.status = .errRange) ∧
    (s.handle.hvalid = false → ∃ t, exec i s = .next t ∧ t.status = .errNoHandle)

/-- `WRITE` in range with data to move completes its acceptance: the cursors stand at the start, the first chunk is set up, and
nothing else changes (10_state.md section 7, R20, R21). -/
def Obligations.WriteStartsItsFirstChunk : Prop :=
  ∀ (s : State) (r : Rec) (off len : Offset), s.handle.hvalid = true → s.record = some r → len ≠ 0 →
    off.toNat + len.toNat ≤ reachOf r →
    exec (.write off len) s = .next { s with
      phase := .wBegin
      dp := {
        curOff := off
        idx := 0
        rem := len
        pos := BitVec.ofNat 8 (off.toNat % pageOf r)
        chunk := BitVec.ofNat 9 (min (pageOf r - off.toNat % pageOf r) len.toNat)
        busb := busAddr r s.base off
        k := 0 } }

/-- `READ` in range with data to move completes its acceptance: the cursors stand at the start, the bus address byte is that of
the start offset, `POS`, `CHUNK`, `K` and everything else stay (10_state.md section 7, R20). -/
def Obligations.ReadStartsItsDummyWrite : Prop :=
  ∀ (s : State) (r : Rec) (off len : Offset), s.handle.hvalid = true → s.record = some r → len ≠ 0 →
    off.toNat + len.toNat ≤ reachOf r →
    exec (.read off len) s = .next { s with
      phase := .rBeginW
      dp := { s.dp with curOff := off, idx := 0, rem := len, busb := busAddr r s.base off } }

/-! ## The sequencer -/

/-- The `WRITE` steps (10_state.md R21), row by row, each when its operation is answered *done*, by the oracle or by an attached
device, whether it was issued in this step or before; with all that the row leaves unchanged, and the buffer port, which asks for
`WBUF[IDX + K]` in the step that issues the data byte (30_encoding.md R83). That the port's strobes are low and `buf_idx` keeps its
value in every other step is the model's choice (log 5). -/
def Obligations.WriteStepsTable : Prop :=
  ∀ (s : State) (r : Rec) (o : TOp) (v : Byte) (e : Env), s.answeredDone o v e → s.contractHolds →
    s.record = some r → s.phase.isWrite = true →
    ∃ t, step s = .next t ∧ t.handle = s.handle ∧ t.latch = s.latch ∧ t.outstanding = none ∧
      t.env.wbuf = s.sample.env.wbuf ∧ t.env.rbuf = s.sample.env.rbuf ∧ t.env = e ∧
      (s.phase = .wBegin → t.phase = (if r.addrBytes = 2 then .wAhi else .wAlo) ∧ t.dp = s.dp ∧
        t.log = s.log ++ s.issuing [.op (.beginSession s.dp.busb)]) ∧
      (s.phase = .wAhi → t.phase = .wAlo ∧ t.dp = s.dp ∧
        t.log = s.log ++ s.issuing [.op (.writeByte (hiByte s.dp.curOff))]) ∧
      (s.phase = .wAlo → t.phase = .wData ∧ t.dp = s.dp ∧
        t.log = s.log ++ s.issuing [.op (.writeByte (loByte s.dp.curOff))] ∧
        (Inv s → t.dp.k = 0 ∧ 0 < t.dp.chunk.toNat)) ∧
      (s.phase = .wData → t.dp = { s.dp with k := s.dp.k + 1 } ∧
        t.phase = (if s.dp.k + 1 = s.dp.chunk then .wEnd else .wData) ∧
        ∃ i : Offset, i = s.dp.idx + s.dp.k.setWidth 16 ∧
          t.log = s.log ++ s.issuing
            [.wbufRead i (s.sample.wbufAt i.toNat), .op (.writeByte (s.sample.wbufAt i.toNat))]) ∧
      (s.phase = .wEnd → s.dp.rem - s.dp.chunk.setWidth 16 ≠ 0 → t.phase = .wBegin ∧
        t.log = s.log ++ s.issuing [.op .endSession] ∧
        t.dp.curOff = s.dp.curOff + s.dp.chunk.setWidth 16 ∧ t.dp.idx = s.dp.idx + s.dp.chunk.setWidth 16 ∧
        t.dp.rem = s.dp.rem - s.dp.chunk.setWidth 16 ∧ t.dp.k = 0 ∧
        t.dp.pos = BitVec.ofNat 8 (t.dp.curOff.toNat % pageOf r) ∧
        t.dp.chunk = BitVec.ofNat 9 (min (pageOf r - t.dp.curOff.toNat % pageOf r) t.dp.rem.toNat) ∧
        t.dp.busb = busAddr r s.base t.dp.curOff) ∧
      (s.phase = .wEnd → s.dp.rem - s.dp.chunk.setWidth 16 = 0 → t.phase = .idle ∧
        t.log = s.log ++ s.issuing [.op .endSession] ++ [.response .ok] ∧
        t.dp = { s.dp with
          curOff := s.dp.curOff + s.dp.chunk.setWidth 16
          idx := s.dp.idx + s.dp.chunk.setWidth 16
          rem := 0 }) ∧
      t.buf.we = false ∧
      (s.phase = .wData → s.outstanding = none → t.buf.re = true ∧ t.buf.idx = s.dp.idx + s.dp.k.setWidth 16) ∧
      (s.phase ≠ .wData ∨ s.outstanding ≠ none → t.buf.re = false ∧ t.buf.idx = s.buf.idx) ∧
      (t.phase ≠ .idle → t.busy = s.busy ∧ t.status = s.status ∧ t.rsp = none) ∧
      (t.phase = .idle → t.busy = false ∧ t.status = .ok ∧ t.rsp = some .ok)

/-- The `READ` steps (10_state.md R22), row by row, each when its operation is answered *done*, by the oracle or by an attached
device, whether it was issued in this step or before; with all that the row leaves unchanged, and the buffer port, which writes
`RBUF[IDX]` in the step in which the byte has come (30_encoding.md R83). That the port's strobes are low and `buf_idx` keeps its
value in every other step is the model's choice (log 5). -/
def Obligations.ReadStepsTable : Prop :=
  ∀ (s : State) (r : Rec) (o : TOp) (v : Byte) (e : Env), s.answeredDone o v e → s.contractHolds →
    s.record = some r → s.phase ≠ .idle →
    s.phase.isWrite = false →
    ∃ t, step s = .next t ∧ t.handle = s.handle ∧ t.latch = s.latch ∧ t.outstanding = none ∧
      t.env.wbuf = s.sample.env.wbuf ∧ t.env = { e with rbuf := t.env.rbuf } ∧
      (s.phase ≠ .rData → t.env.rbuf = s.sample.env.rbuf ∧ t.dp = s.dp) ∧
      (s.phase = .rBeginW → t.phase = (if r.addrBytes = 2 then .rAhi else .rAlo) ∧
        t.log = s.log ++ s.issuing [.op (.beginSession s.dp.busb)]) ∧
      (s.phase = .rAhi → t.phase = .rAlo ∧ t.log = s.log ++ s.issuing [.op (.writeByte (hiByte s.dp.curOff))]) ∧
      (s.phase = .rAlo → t.phase = .rEndW ∧ t.log = s.log ++ s.issuing [.op (.writeByte (loByte s.dp.curOff))]) ∧
      (s.phase = .rEndW → t.phase = .rBeginR ∧ t.log = s.log ++ s.issuing [.op .endSession]) ∧
      (s.phase = .rBeginR → t.phase = .rData ∧
        t.log = s.log ++ s.issuing [.op (.beginSession (s.dp.busb ||| 0x01#8))]) ∧
      (s.phase = .rData →
        t.dp = { s.dp with idx := s.dp.idx + 1, rem := s.dp.rem - 1 } ∧
        t.phase = (if s.dp.rem - 1 = 0 then .rEnd else .rData) ∧
        t.log = s.log ++ s.issuing [.op (if s.dp.rem.toNat > 1 then .readByteAck else .readByteNak)]
          ++ [.rbufWrite s.dp.idx v] ∧
        t.rbufAt s.dp.idx.toNat = v ∧
        ∀ i, i ≠ s.dp.idx.toNat → t.rbufAt i = s.sample.rbufAt i) ∧
      (s.phase = .rEnd → t.phase = .idle ∧ t.log = s.log ++ s.issuing [.op .endSession] ++ [.response .ok]) ∧
      t.buf.re = false ∧
      (s.phase = .rData → t.buf.we = true ∧ t.buf.idx = s.dp.idx ∧ t.buf.wdata = v) ∧
      (s.phase ≠ .rData → t.buf.we = false ∧ t.buf.idx = s.buf.idx) ∧
      (t.phase ≠ .idle → t.busy = s.busy ∧ t.status = s.status ∧ t.rsp = none) ∧
      (t.phase = .idle → t.busy = false ∧ t.status = .ok ∧ t.rsp = some .ok)

/-- 10_state.md R24: an operation answered *fail* ends the command with `ERR_TRANSPORT`; no assignment of the phase is made, no
further operation is issued, no byte is stored. -/
def Obligations.FailedOperationEndsTheCommand : Prop :=
  ∀ (s : State) (o : TOp), s.answeredFail → s.contractHolds → s.phase ≠ .idle → s.pendingOp = some o →
    ∃ t, step s = .next t ∧ t.phase = .idle ∧ t.busy = false ∧ t.status = .errTransport ∧
      t.rsp = some .errTransport ∧ t.outstanding = none ∧
      t.dp = s.dp ∧ t.handle = s.handle ∧ t.latch = s.latch ∧
      t.env.rbuf = s.sample.env.rbuf ∧ t.env.wbuf = s.sample.env.wbuf ∧
      opsOf t.log = opsOf s.log ++ (if s.outstanding = none then [o] else [])

/-- 10_state.md R25: while the transport has answered neither done nor fail, the sequencer waits: the operation stays on the
port, no register changes, no response is given. -/
def Obligations.UnansweredOperationWaits : Prop :=
  ∀ (s : State) (o : TOp), s.unanswered → s.contractHolds → s.phase ≠ .idle → s.pendingOp = some o →
    ∃ t, step s = .next t ∧ t.phase = s.phase ∧ t.busy = s.busy ∧ t.status = s.status ∧ t.rsp = none ∧
      t.outstanding = some o ∧ t.dp = s.dp ∧ t.handle = s.handle ∧ t.latch = s.latch ∧
      t.env.rbuf = s.sample.env.rbuf ∧ t.env.wbuf = s.sample.env.wbuf ∧
      opsOf t.log = opsOf s.log ++ (if s.outstanding = none then [o] else [])

/-- 43_transport.md R163: a transport that never answers leaves the engine waiting for ever with `BUSY = 1`, whatever else the
host does, short of a reset (95_test_vectors.md V320). -/
def Obligations.NeverAnsweredIsBusyForEver : Prop :=
  ∀ s : State, (∀ p ∈ s.env.inputs, p.rst = false ∧ p.answer = none) → s.env.device = none → s.phase ≠ .idle →
    s.busy = true → s.contractHolds →
    ∀ n, ∃ t, runFor n s = .next t ∧ t.phase = s.phase ∧ t.busy = true ∧ t.status = s.status ∧ t.dp = s.dp ∧
      (0 < n → t.rsp = none ∧ t.tReq = true)

/-- A transfer to a bus address no device answers never gets past its first `T.begin`, however long it waits, unless the transport
gives up with *fail* or a reset comes (70_reset_and_hazards.md R230); whatever else the host does. -/
def Obligations.AbsentDeviceIsWaitedForEver : Prop :=
  ∀ (s : State) (d : Device) (r : Rec), (∀ p ∈ s.env.inputs, p.rst = false ∧ p.answer ≠ some .fail) →
    s.env.device = some d → dispatch d.density = some r →
    (s.phase = .wBegin ∨ s.phase = .rBeginW) → s.outstanding = none → s.env.sessionOpen = false →
    s.dp.busb &&& 0xFE#8 &&& ~~~((r.foldMask >>> 7).setWidth 8) ≠ d.strap →
    ∀ n, ∃ t, runFor n s = .next t ∧ t.phase = s.phase ∧ t.busy = s.busy ∧ t.dp = s.dp ∧ t.handle = s.handle ∧
      t.status = s.status ∧ (0 < n → t.rsp = none ∧ t.outstanding = some (.beginSession s.dp.busb))

/-- The model's choice (log 7; 93_implementation_defined.md U8 and 70_reset_and_hazards.md R227): a `T.begin` that would be
issued inside an open session is refused, whatever else the inputs do. -/
def Obligations.BeginInsideOpenSessionIsRefused : Prop :=
  ∀ s : State, s.pins.rst = false → s.outstanding = none → s.env.sessionOpen = true →
    (s.phase = .wBegin ∨ s.phase = .rBeginW ∨ s.phase = .rBeginR) →
    step s = .refused .beginInOpenSession

/-! ## Rules about every step -/

/-- 40_dispatch_and_handle.md R112: only `CREATE_HANDLE` and reset write the handle; reset clears `HVALID`; a successful
`CREATE_HANDLE` replaces the whole handle whether or not one exists; while a transfer runs the handle cannot change. -/
def Obligations.HandleIsWrittenByCreateAndResetOnly : Prop :=
  (∀ s t : State, step s = .next t → s.pins.rst = true → t.handle.hvalid = false) ∧
  (∀ s t : State, step s = .next t → s.pins.rst = false →
    (∃ w b d, s.offers w ∧ decode w = .ok (.createHandle b d)) ∨ t.handle = s.handle) ∧
  (∀ s t : State, step s = .next t → s.pins.rst = false → s.phase ≠ .idle → t.handle = s.handle) ∧
  (∀ (s : State) (w : CmdWord) (b : Byte) (d : BitVec 16) (r : Rec), s.offers w → decode w = .ok (.createHandle b d) →
    dispatch d = some r →
    ∃ t, step s = .next t ∧ t.handle.hvalid = true ∧ t.base = b &&& 0xFE#8 ∧ t.handle.density = d)

/-- 10_state.md R17: `BUSY = 1` exactly when `PHASE != IDLE`, kept by every step, and then `cmd_ready = 0`; at reset `BUSY = 0`.
`cmd_ready = 1` exactly in IDLE while `rst` is not asserted (30_encoding.md R70; 70_reset_and_hazards.md R210). -/
def Obligations.BusyExactlyOutsideIdle : Prop :=
  (∀ s t : State, (s.busy = true ↔ s.phase ≠ .idle) → step s = .next t → (t.busy = true ↔ t.phase ≠ .idle)) ∧
  (∀ s : State, (s.busy = true ↔ s.phase ≠ .idle) → s.busy = true → s.cmdReady = false) ∧
  (∀ s : State, s.cmdReady = true ↔ s.phase = .idle ∧ s.pins.rst = false) ∧
  State.reset.busy = false

/-- 10_state.md R18: `STATUS` is written at completion only, when `BUSY` falls and the response with the same value is presented;
it keeps its value otherwise, at the next acceptance too. At reset it is `OK`. -/
def Obligations.StatusIsWrittenAtCompletionOnly : Prop :=
  (∀ s t : State, s.pins.rst = false → step s = .next t →
    (t.rsp = none ∧ t.status = s.status) ∨ (t.rsp = some t.status ∧ t.busy = false ∧ t.phase = .idle)) ∧
  State.reset.status = .ok ∧ Status.ok.code = 0#3

/-- A response is presented exactly when a command completes: one that was running, or one accepted in this very step
(30_encoding.md R71). -/
def Obligations.OneResponsePerCommand : Prop :=
  ∀ s t : State, Inv s → s.pins.rst = false → step s = .next t →
    (t.rsp.isSome = true ↔ t.busy = false ∧ (s.busy = true ∨ ∃ w, s.offers w))

/-- 70_reset_and_hazards.md R225: what the command port shows while a command runs does not affect it, and is not taken. -/
def Obligations.CommandPortIsIgnoredWhileBusy : Prop :=
  ∀ (s : State) (p : Sample) (rest : List Sample) (c : Option CmdWord), s.phase ≠ .idle →
    s.env.inputs = p :: rest →
    step { s with env := { s.env with inputs := { p with cmd := c } :: rest } } = step s ∧
    (p.rst = false → ∀ t, step s = .next t → t.latch = s.latch)

/-- The engine never writes `WBUF`, and writes `RBUF` only in `R_DATA`, at `IDX`, the byte with which the transport answers the
operation of that step (10_state.md R19, R22, R28). -/
def Obligations.EngineStoresOnlyReceivedBytes : Prop :=
  ∀ s t : State, step s = .next t → ∀ i,
    t.wbufAt i = s.sample.wbufAt i ∧
    (t.rbufAt i = s.sample.rbufAt i ∨
      (s.pins.rst = false ∧ s.phase = .rData ∧ i = s.dp.idx.toNat ∧
        ∃ o e, s.pendingOp = some o ∧ transportReply s.pins o s.sample.env = .done (t.rbufAt i) e))

/-- 70_reset_and_hazards.md R210 and R211: `rst` in any phase gives the reset values, no response, no operation, and leaves the
buffers alone, and, outside a write chunk in flight, the device's memory and write cycle (log 11); with nothing outstanding its
counter too, and the whole device, but for the time that passes, where the transport leaves the session open. That the other
registers keep what they hold is the model's choice (log 2). -/
def Obligations.ResetInAnyPhase : Prop :=
  ∀ s : State, s.pins.rst = true → s.cmdReady = false ∧
    ∃ t, step s = .next t ∧
      t.handle.hvalid = false ∧ t.phase = .idle ∧ t.busy = false ∧ t.status = .ok ∧ t.rsp = none ∧
      t.outstanding = none ∧ t.tReq = false ∧ t.buf.re = false ∧ t.buf.we = false ∧ t.log = s.log ∧
      t.env.wbuf = s.sample.env.wbuf ∧ t.env.rbuf = s.sample.env.rbuf ∧
      (s.busy = false → t.env = s.sample.env) ∧
      (∀ d, s.env.device = some d → (∀ stored, d.session ≠ .data stored) →
        ∃ d', t.env.device = some d' ∧ d'.mem = d.mem ∧ d'.epoch = d.epoch ∧ d'.wcycle = d.tick.wcycle ∧
          (s.outstanding = none → d'.ac = d.ac) ∧
          (s.outstanding = none → s.pins.leftOpen = true → s.pins.restore = false → d' = d.tick)) ∧
      t.base = s.base ∧ t.handle.density = s.handle.density ∧ t.latch = s.latch ∧ t.dp = s.dp ∧
      (t.pins.rst = false → t.cmdReady = true)

/-- 10_state.md R31: the registers the spec gives a reset value. -/
def Obligations.ResetStateAsSpecified : Prop :=
  State.reset.handle.hvalid = false ∧ State.reset.base.getLsbD 0 = false ∧ State.reset.phase = .idle ∧
    State.reset.busy = false ∧ State.reset.status.code = 0#3 ∧ State.reset.cmdReady = true

/-- The codes on the ports: `rsp_status` (60_exceptions.md R181) and `t_op` (30_encoding.md R82), which is never 0 while `t_req` is 1;
6 and 7 never appear. That `t_op` is 0 while `t_req` is 0 is the model's choice (log 20). -/
def Obligations.PortCodes : Prop :=
  [Status.ok, .errConfig, .errRange, .errNoHandle, .errIllegalCmd, .errTransport].map Status.code = [0, 1, 2, 3, 4, 5] ∧
  (∀ (b v : Byte), [TOp.beginSession b, .writeByte v, .readByteAck, .readByteNak, .endSession].map TOp.code = [1, 2, 3, 4, 5]) ∧
  (∀ s : State, s.tOp = 0 ↔ s.tReq = false) ∧ (∀ s : State, s.tOp ≠ 6 ∧ s.tOp ≠ 7)

/-! ## Invariants -/

/-- The machine's invariant holds at reset. -/
def Obligations.InvariantHoldsAtReset : Prop := Inv State.reset

/-- The machine's invariant is kept by every step, whatever the host, the transport and the device do. -/
def Obligations.EveryStepKeepsTheInvariant : Prop :=
  ∀ s t : State, Inv s → step s = .next t → Inv t

/-- From a state with the invariant a step never faults, and is refused only at a `T.begin` in a session an earlier failure or
reset left open. That refusal is the model's choice (log 7), and so are the two stops it rules out: the fault `noRecord` (log 14)
and the refusal `operationOutsideContract` (log 13). -/
def Obligations.InvariantStepIsSafe : Prop := ∀ s : State, Inv s → SafeStep s

/-- 10_state.md R15: the range invariants of a running transfer, as unbounded integers. -/
def Obligations.RunningTransferStaysInRange : Prop :=
  ∀ (s : State) (r : Rec), Inv s → s.record = some r →
    (s.phase.isWrite = true →
      s.dp.curOff.toNat + s.dp.rem.toNat ≤ reachOf r ∧ reachOf r ≤ 65536 ∧ 1 ≤ s.dp.rem.toNat ∧
      s.dp.pos.toNat < pageOf r ∧ s.dp.pos.toNat ≤ 255 ∧ 1 ≤ s.dp.chunk.toNat ∧
      s.dp.chunk.toNat ≤ pageOf r - s.dp.pos.toNat ∧ s.dp.chunk.toNat ≤ s.dp.rem.toNat ∧ s.dp.chunk.toNat ≤ 256 ∧
      s.dp.curOff.toNat + s.dp.chunk.toNat ≤ 65536 ∧
      (s.dp.curOff.toNat + s.dp.chunk.toNat = 65536 → s.dp.rem.toNat = s.dp.chunk.toNat)) ∧
    (s.phase = .wData → s.dp.idx.toNat + s.dp.k.toNat < s.latch.cLen.toNat) ∧
    (s.phase = .rBeginW → s.dp.curOff.toNat + s.dp.rem.toNat ≤ reachOf r ∧ reachOf r ≤ 65536 ∧ 1 ≤ s.dp.rem.toNat) ∧
    (s.phase = .rData → s.dp.idx.toNat < s.latch.cLen.toNat)

/-! ## Chunks and traces in big steps -/

/-- 41_write.md R123: no chunk crosses a page boundary, and a chunk is cut only at a page boundary or at the end of the request. -/
def Obligations.NoChunkCrossesAPage : Prop :=
  ∀ page off len : Nat, 0 < page → ∀ c ∈ chunks page off len,
    1 ≤ c.2 ∧ c.1 % page + c.2 ≤ page ∧ ((c.1 + c.2) % page = 0 ∨ c.1 + c.2 = off + len)

/-- 41_write.md R122: the number, the starts and the sizes of the chunks. -/
def Obligations.ChunkStartsAndSizes : Prop :=
  ∀ page off len : Nat, 0 < page → 0 < len →
    (chunks page off len).length = (off % page + len + page - 1) / page ∧
    (chunks page off len).head? = some (off, min (page - off % page) len) ∧
    (∀ j c, 1 ≤ j → (chunks page off len)[j]? = some c → c.1 = (off / page + j) * page) ∧
    (∀ j c, 1 ≤ j → j + 1 < (chunks page off len).length → (chunks page off len)[j]? = some c → c.2 = page) ∧
    (∀ c, 1 < (chunks page off len).length → (chunks page off len).getLast? = some c →
      c.2 = (len - min (page - off % page) len - 1) % page + 1) ∧
    (off % page + len ≤ page → chunks page off len = [(off, len)]) ∧
    ((chunks page off len).map (·.2)).sum = len

/-- 41_write.md R130: the size of a `WRITE`'s trace. -/
def Obligations.WriteTraceSize : Prop :=
  ∀ (s : State) (d : BitVec 16) (r : Rec) (off len : Nat), dispatch d = some r →
    (opsOf (writeEvents r s off len)).length =
      (if len = 0 then 0 else (off % pageOf r + len + pageOf r - 1) / pageOf r) * (2 + addrBytesOf r) + len

/-- 42_read.md R143: `N - 1` acknowledged pulls, then one not acknowledged; the k-th value returned is stored at `RBUF[k]`. -/
def Obligations.ReadAcknowledgesAllButTheLast : Prop :=
  ∀ (s : State) (r : Rec) (off : Nat) (values : List Byte), values ≠ [] →
    (opsOf (readEvents r s off values)).filter (fun o => o = .readByteAck ∨ o = .readByteNak) =
      List.replicate (values.length - 1) .readByteAck ++ [.readByteNak] ∧
    storesOf (readEvents r s off values) =
      (List.range values.length).zipWith (fun k v => (BitVec.ofNat 16 k, v)) values

/-- The trace grammar (43_transport.md R170): from a closed session, every operation of a command answered *done* throughout
stands where it may, and at the end no session is open; a prefix of such a trace keeps the discipline. -/
def Obligations.CommandTracesAreWellFramed : Prop :=
  ∀ (s : State) (d : BitVec 16) (r : Rec) (off len : Nat) (values : List Byte), dispatch d = some r →
    BusMode.run .closed (opsOf (writeEvents r s off len)) = some .closed ∧
    BusMode.run .closed (opsOf (readEvents r s off values)) = some .closed ∧
    ∀ k, (BusMode.run .closed ((opsOf (writeEvents r s off len)).take k)).isSome = true ∧
      (BusMode.run .closed ((opsOf (readEvents r s off values)).take k)).isSome = true

/-- The sequencer agrees with the pseudocode (10_state.md R26) on a `WRITE` answered *done* throughout, at once or after any number
of silent steps: it produces the pseudocode's events, then the response `OK`. -/
def Obligations.WriteRunIsItsPseudocode : Prop :=
  ∀ (s : State) (r : Rec) (off len : Offset) (ps rest : List Sample),
    s.handle.hvalid = true → s.record = some r → len ≠ 0 → off.toNat + len.toNat ≤ reachOf r →
    s.env.device = none → s.env.sessionOpen = false → s.outstanding = none →
    s.env.inputs = ps ++ rest → (∀ p ∈ ps, p.harmless) →
    (answersOf ps).length = (opsOf (writeEvents r s off.toNat len.toNat)).length →
    ∃ t u n, exec (.write off len) s = .next t ∧ n ≤ ps.length ∧ runFor n t = .next u ∧
      u.log = s.log ++ writeEvents r s off.toNat len.toNat ++ [.response .ok] ∧
      u.phase = .idle ∧ u.busy = false ∧ u.status = .ok ∧ u.rsp = some .ok ∧ u.outstanding = none ∧
      u.handle = s.handle ∧ u.latch = s.latch ∧
      u.env = { s.env with inputs := s.env.inputs.drop n }

/-- The sequencer agrees with the pseudocode (10_state.md R26, 41_write.md R129) on a `WRITE` whose `k`-th operation fails, at once or
after any number of silent steps: the pseudocode's events through that operation, then the response `ERR_TRANSPORT`, and
nothing after it. -/
def Obligations.FailedWriteRunIsItsPseudocode : Prop :=
  ∀ (s : State) (r : Rec) (off len : Offset) (ps : List Sample) (p : Sample) (rest : List Sample),
    s.handle.hvalid = true → s.record = some r → len ≠ 0 → off.toNat + len.toNat ≤ reachOf r →
    s.env.device = none → s.env.sessionOpen = false → s.outstanding = none →
    s.env.inputs = ps ++ p :: rest → (∀ q ∈ ps, q.harmless) →
    p.rst = false → p.answer = some .fail → p.wbuf = [] → p.rbuf = [] →
    (answersOf ps).length < (opsOf (writeEvents r s off.toNat len.toNat)).length →
    ∃ t u, exec (.write off len) s = .next t ∧ runFor (ps.length + 1) t = .next u ∧
      u.log = s.log ++ throughOp (answersOf ps).length (writeEvents r s off.toNat len.toNat) ++ [.response .errTransport] ∧
      u.phase = .idle ∧ u.busy = false ∧ u.status = .errTransport ∧ u.rsp = some .errTransport ∧
      u.outstanding = none ∧ u.handle = s.handle ∧ u.latch = s.latch ∧
      u.env.rbuf = s.env.rbuf ∧ u.env.wbuf = s.env.wbuf ∧ u.env.inputs = rest

/-- The sequencer agrees with the pseudocode (10_state.md R26) on a `READ` answered *done* throughout, at once or after any number of
silent steps: `ADDR_BYTES + N + 4` operations, the bytes returned stored from `RBUF[0]` on, every other byte of `RBUF` as it
was. -/
def Obligations.ReadRunIsItsPseudocode : Prop :=
  ∀ (s : State) (r : Rec) (off len : Offset) (ps rest : List Sample),
    s.handle.hvalid = true → s.record = some r → len ≠ 0 → off.toNat + len.toNat ≤ reachOf r →
    s.env.device = none → s.env.sessionOpen = false → s.outstanding = none →
    s.env.inputs = ps ++ rest → (∀ p ∈ ps, p.harmless) →
    (answersOf ps).length = addrBytesOf r + len.toNat + 4 →
    ∃ t u n values, exec (.read off len) s = .next t ∧ n ≤ ps.length ∧ runFor n t = .next u ∧
      values = ((answersOf ps).drop (addrBytesOf r + 3)).take len.toNat ∧
      u.log = s.log ++ readEvents r s off.toNat values ++ [.response .ok] ∧
      u.phase = .idle ∧ u.busy = false ∧ u.status = .ok ∧ u.rsp = some .ok ∧ u.outstanding = none ∧
      u.handle = s.handle ∧ u.latch = s.latch ∧
      u.env = { s.env with inputs := s.env.inputs.drop n, rbuf := u.env.rbuf } ∧
      (∀ i, i < len.toNat → some (u.rbufAt i) = values[i]?) ∧
      (∀ i, len.toNat ≤ i → u.rbufAt i = s.rbufAt i)

/-- The sequencer agrees with the pseudocode (10_state.md R26, 42_read.md R146) on a `READ` whose `k`-th operation fails, at once or
after any number of silent steps: the bytes already returned are in `RBUF`, the rest of it is untouched. -/
def Obligations.FailedReadRunIsItsPseudocode : Prop :=
  ∀ (s : State) (r : Rec) (off len : Offset) (ps : List Sample) (p : Sample) (rest : List Sample) (values : List Byte),
    s.handle.hvalid = true → s.record = some r → len ≠ 0 → off.toNat + len.toNat ≤ reachOf r →
    s.env.device = none → s.env.sessionOpen = false → s.outstanding = none →
    s.env.inputs = ps ++ p :: rest → (∀ q ∈ ps, q.harmless) →
    p.rst = false → p.answer = some .fail → p.wbuf = [] → p.rbuf = [] →
    (answersOf ps).length < addrBytesOf r + len.toNat + 4 →
    values.length = len.toNat → (answersOf ps).drop (addrBytesOf r + 3) <+: values →
    ∃ t u, exec (.read off len) s = .next t ∧ runFor (ps.length + 1) t = .next u ∧
      u.log = s.log ++ throughOp (answersOf ps).length (readEvents r s off.toNat values) ++ [.response .errTransport] ∧
      u.phase = .idle ∧ u.busy = false ∧ u.status = .errTransport ∧ u.rsp = some .errTransport ∧
      u.outstanding = none ∧ u.handle = s.handle ∧ u.latch = s.latch ∧
      u.env.wbuf = s.env.wbuf ∧ u.env.inputs = rest ∧
      (∀ i, i < ((answersOf ps).drop (addrBytesOf r + 3)).length → some (u.rbufAt i) = values[i]?) ∧
      (∀ i, ((answersOf ps).drop (addrBytesOf r + 3)).length ≤ i → u.rbufAt i = s.rbufAt i)

/-! ## The reference device (environment) -/

/-- A data byte in a write session (20_memory.md R63): it is stored at `AC`, no other byte changes, and the counter moves inside
its page. -/
def Obligations.DeviceStoresAndWrapsInThePage : Prop :=
  ∀ (d : Device) (r : Rec) (v : Byte) (stored : Bool), dispatch d.density = some r → d.ac < capOf r →
    d.session = .data stored →
    ∃ d', d.respond (.writeByte v) = .answered 0 d' ∧ d'.byteAt d.ac = v ∧
      (∀ a, a ≠ d.ac → d'.byteAt a = d.byteAt a) ∧
      d'.ac / pageOf r = d.ac / pageOf r ∧ d'.ac % pageOf r = (d.ac + 1) % pageOf r ∧ d'.session = .data true

/-- Selection and address phase (20_memory.md R61, R62): the device answers a `T.begin` exactly when the bus byte, less the
direction bit and the folded bits, is its strap and no write cycle runs; a read session then reads, a write session takes address
bytes, and the one or two address bytes set `AC`, data coming next. -/
def Obligations.DeviceIsSelectedThenAddressed : Prop :=
  ∀ (d : Device) (r : Rec), dispatch d.density = some r →
    (∀ b : Byte, d.respond (.beginSession b) = .silent ↔
      ¬ (b &&& 0xFE#8 &&& ~~~((r.foldMask >>> 7).setWidth 8) = d.strap ∧ d.wcycle = 0)) ∧
    (∀ b : Byte, d.respond (.beginSession b) ≠ .silent →
      ∃ d', d.respond (.beginSession b) = .answered 0 d' ∧ d'.mem = d.mem ∧ d'.ac = d.ac ∧
        (b.getLsbD 0 = true → d'.session = .reading) ∧
        (b.getLsbD 0 = false → d'.session = .address (b.toNat / 2 % 2 ^ r.foldBits.toNat) none)) ∧
    (∀ (hi : Nat) (a : Byte), r.addrBytes = 1 → d.session = .address hi none →
      ∃ d', d.respond (.writeByte a) = .answered 0 d' ∧ d'.ac = hi * 256 + a.toNat ∧ d'.session = .data false ∧
        d'.mem = d.mem ∧ d'.wcycle = d.wcycle) ∧
    (∀ (hi : Nat) (a1 a2 : Byte), r.addrBytes = 2 → d.session = .address hi none →
      ∃ d' d'', d.respond (.writeByte a1) = .answered 0 d' ∧ d'.ac = d.ac ∧
        d'.respond (.writeByte a2) = .answered 0 d'' ∧ d''.ac = (a1.toNat * 256 + a2.toNat) % capOf r ∧
        d''.session = .data false ∧ d''.mem = d.mem ∧ d''.wcycle = d.wcycle)

/-- The write cycle (20_memory.md R63): after data bytes `E` starts it, during it no `T.begin` is answered, and it ends by
itself after finitely many steps; after no data byte `WCYCLE` and `AC` stay as they are. -/
def Obligations.WriteCycleFollowsDataAndEnds : Prop :=
  ∀ (d : Device) (r : Rec), dispatch d.density = some r →
    (d.session = .data true → ∃ d', d.respond .endSession = .answered 0 d' ∧ d'.mem = d.mem ∧ d'.wcycle ≠ 0 ∧
      (∀ b, d'.respond (.beginSession b) = .silent) ∧ ∃ n, (Device.tick^[n] d').wcycle = 0) ∧
    (d.session = .data false → ∃ d', d.respond .endSession = .answered 0 d' ∧ d'.mem = d.mem ∧ d'.wcycle = d.wcycle ∧
      d'.ac = d.ac ∧ d'.session = .idle)

/-- A read (20_memory.md R64): it returns `MEM[AC]` and moves `AC` on by one, without regard to pages; after `RN` the device releases
the bus. What `AC` is where it would pass `CAP - 1` the spec leaves undefined, and nothing is said of it here (log 12). On density
1024 bit 16 of `AC` is held at 0 (R62, 93_implementation_defined.md G6). That a read after the release is refused is the model's
choice (log 13). -/
def Obligations.DeviceReadMovesOnByOne : Prop :=
  ∀ (d : Device) (r : Rec) (o : TOp), dispatch d.density = some r → d.session = .reading → d.ac < capOf r →
    o = .readByteAck ∨ o = .readByteNak →
    ∃ d', d.respond o = .answered (d.byteAt d.ac) d' ∧ (d.ac + 1 < reachOf r → d'.ac = d.ac + 1) ∧
      (d.density = 1024 → d'.ac < 65536 ∧ (d.ac < 65536 → d'.ac = (d.ac + 1) % 65536)) ∧
      d'.mem = d.mem ∧ (∀ a, d'.byteAt a = d.byteAt a) ∧ d'.wcycle = d.wcycle ∧
      (o = .readByteAck → d'.session = .reading) ∧
      (o = .readByteNak → d'.session = .released ∧
        d'.respond .readByteAck = .outside ∧ d'.respond .readByteNak = .outside)

/-- The memory and the write cycle after a session is cut short (93_implementation_defined.md U8, 20_memory.md R63, log 11), by a
failure or a reset, whatever operation was in flight: every byte of the device is as it was (so the new one, in the chunk), or the
one an entry of the chunk replaced, or the data byte that was in flight, at the counter. With no data byte in flight (a read
session, a dummy write, no session) the memory and the write cycle are as they were, and with nothing outstanding either the
device is untouched while its session stays open. That the session is over where the transport has released the bus, and else as
it was, is the model's choice (log 11). Nothing is said of the counter, nor of a data byte sent past the end of the array (log 12). -/
def Obligations.CutShortChunkTouchesNothingElse : Prop :=
  ∀ (d : Device) (r : Rec) (o : Option TOp) (ended : Bool), dispatch d.density = some r → Memory.wf d.mem →
    (∀ v stored, o = some (.writeByte v) → d.session = .data stored → d.ac < capOf r) →
    (ended = true → (d.abort o ended).session = .idle) ∧
    (ended = false → (∀ v, o ≠ some (.writeByte v)) → (d.abort o ended).session = d.session) ∧
    (ended = false → o = none → d.session ≠ .data true → d.abort o ended = d) ∧
    (∀ a, (d.abort o ended).byteAt a = d.byteAt a ∨
      (∃ old, (a, old) ∈ d.undo ∧ (d.abort o ended).byteAt a = old.getD (Config.initialMem d.epoch a)) ∨
      (∃ v stored, o = some (.writeByte v) ∧ d.session = .data stored ∧ a = d.ac ∧ (d.abort o ended).byteAt a = v)) ∧
    ((∀ stored, d.session ≠ .data stored) ∨ (d.session = .data false ∧ ∀ v, o ≠ some (.writeByte v)) →
      (d.abort o ended).mem = d.mem ∧ (d.abort o ended).epoch = d.epoch ∧ (d.abort o ended).wcycle = d.wcycle)

/-- A `WRITE` on the reference device (20_memory.md R65): it completes `OK`, `MEM[S + i] = WBUF[i]`, and every other byte of
`MEM` is unchanged, however long the device's write cycles last, and whatever the host shows that is harmless (no reset, no
*fail*, no byte placed in the buffers). -/
def Obligations.WriteReachesTheDevice : Prop :=
  ∀ (s : State) (d : Device) (r : Rec) (off len : Offset),
    s.handle.hvalid = true → s.record = some r → len ≠ 0 → off.toNat + len.toNat ≤ reachOf r →
    (∀ p ∈ s.env.inputs, p.harmless) → s.env.sessionOpen = false → s.outstanding = none →
    s.env.device = some d → d.density = s.handle.density → d.strap = s.base → d.session = .idle → Memory.wf d.mem →
    s.base &&& (r.foldMask >>> 7).setWidth 8 = 0#8 →
    ∃ t n u d', exec (.write off len) s = .next t ∧ runFor n t = .next u ∧
      u.phase = .idle ∧ u.busy = false ∧ u.status = .ok ∧ u.rsp = some .ok ∧ u.handle = s.handle ∧
      u.env.wbuf = s.env.wbuf ∧ u.env.rbuf = s.env.rbuf ∧ u.env.inputs = s.env.inputs.drop n ∧ u.env.sessionOpen = false ∧
      u.outstanding = none ∧ u.env.device = some d' ∧
      d'.density = d.density ∧ d'.strap = d.strap ∧ d'.session = .idle ∧ Memory.wf d'.mem ∧
      (∀ i, i < len.toNat → d'.byteAt (off.toNat + i) = s.wbufAt i) ∧
      (∀ a, a < off.toNat ∨ off.toNat + len.toNat ≤ a → d'.byteAt a = d.byteAt a)

/-- A `READ` on the reference device (20_memory.md R64, R65): it completes `OK`, `RBUF[i] = MEM[S + i]`, the rest of `RBUF` and all
of `MEM` are unchanged, whatever the host shows that is harmless (no reset, no *fail*, no byte placed in the buffers). -/
def Obligations.ReadComesFromTheDevice : Prop :=
  ∀ (s : State) (d : Device) (r : Rec) (off len : Offset),
    s.handle.hvalid = true → s.record = some r → len ≠ 0 → off.toNat + len.toNat ≤ reachOf r →
    (∀ p ∈ s.env.inputs, p.harmless) → s.env.sessionOpen = false → s.outstanding = none →
    s.env.device = some d → d.density = s.handle.density → d.strap = s.base → d.session = .idle →
    s.base &&& (r.foldMask >>> 7).setWidth 8 = 0#8 →
    ∃ t n u d', exec (.read off len) s = .next t ∧ runFor n t = .next u ∧
      u.phase = .idle ∧ u.busy = false ∧ u.status = .ok ∧ u.rsp = some .ok ∧ u.handle = s.handle ∧
      u.env.wbuf = s.env.wbuf ∧ u.env.inputs = s.env.inputs.drop n ∧ u.env.sessionOpen = false ∧ u.outstanding = none ∧
      u.env.device = some d' ∧ d'.mem = d.mem ∧ (∀ a, d'.byteAt a = d.byteAt a) ∧
      (∀ i, i < len.toNat → u.rbufAt i = d.byteAt (off.toNat + i)) ∧
      (∀ i, len.toNat ≤ i → u.rbufAt i = s.rbufAt i)

/-- 20_memory.md R65, whole: on the reference device, with no transport failure, a `WRITE(S, L)` completes `OK` with `MEM[S + i] =
WBUF[i]` and every other byte unchanged, a following `READ(S, L)` completes `OK` with `RBUF[i] = MEM[S + i]`, hence
`RBUF[i] = WBUF[i]`; whatever the host shows that is harmless (no reset, no *fail*, no byte placed in the buffers). -/
def Obligations.WriteThenReadRoundTrips : Prop :=
  ∀ (s : State) (d : Device) (r : Rec) (off len : Offset),
    s.handle.hvalid = true → s.record = some r → off.toNat + len.toNat ≤ reachOf r →
    (∀ p ∈ s.env.inputs, p.harmless) → s.env.sessionOpen = false → s.outstanding = none → s.phase = .idle →
    s.env.device = some d → d.density = s.handle.density → d.strap = s.base → d.session = .idle → Memory.wf d.mem →
    s.base &&& (r.foldMask >>> 7).setWidth 8 = 0#8 →
    ∃ t n u t' n' u' d',
      exec (.write off len) s = .next t ∧ runFor n t = .next u ∧ u.phase = .idle ∧ u.status = .ok ∧
      u.rsp = some .ok ∧ u.env.device = some d' ∧
      (∀ i, i < len.toNat → d'.byteAt (off.toNat + i) = s.wbufAt i) ∧
      (∀ a, a < off.toNat ∨ off.toNat + len.toNat ≤ a → d'.byteAt a = d.byteAt a) ∧
      exec (.read off len) u = .next t' ∧ runFor n' t' = .next u' ∧ u'.phase = .idle ∧ u'.status = .ok ∧
      u'.rsp = some .ok ∧
      (∀ i, i < len.toNat → u'.rbufAt i = d'.byteAt (off.toNat + i)) ∧
      ∀ i, i < len.toNat → u'.rbufAt i = s.wbufAt i
end

