-- ==== Sys2Proof/Laws/State.lean ====
section
/-! SUPPORT. One lemma per field per update of State, true by rfl, so that no later proof unfolds an update. -/

namespace Sys2Proof.Machine

variable (s : State)

/-! ## storeHandle -/

@[simp] theorem storeHandle_handle (b : Byte) (d : BitVec 16) :
    (s.storeHandle b d).handle = { hvalid := true, base7 := b.extractLsb' 1 7, density := d } := rfl
@[simp] theorem storeHandle_latch (b : Byte) (d : BitVec 16) : (s.storeHandle b d).latch = s.latch := rfl
@[simp] theorem storeHandle_dp (b : Byte) (d : BitVec 16) : (s.storeHandle b d).dp = s.dp := rfl
@[simp] theorem storeHandle_phase (b : Byte) (d : BitVec 16) : (s.storeHandle b d).phase = s.phase := rfl
@[simp] theorem storeHandle_busy (b : Byte) (d : BitVec 16) : (s.storeHandle b d).busy = s.busy := rfl
@[simp] theorem storeHandle_status (b : Byte) (d : BitVec 16) : (s.storeHandle b d).status = s.status := rfl
@[simp] theorem storeHandle_rsp (b : Byte) (d : BitVec 16) : (s.storeHandle b d).rsp = s.rsp := rfl
@[simp] theorem storeHandle_outstanding (b : Byte) (d : BitVec 16) :
    (s.storeHandle b d).outstanding = s.outstanding := rfl
@[simp] theorem storeHandle_buf (b : Byte) (d : BitVec 16) : (s.storeHandle b d).buf = s.buf := rfl
@[simp] theorem storeHandle_log (b : Byte) (d : BitVec 16) : (s.storeHandle b d).log = s.log := rfl
@[simp] theorem storeHandle_env (b : Byte) (d : BitVec 16) : (s.storeHandle b d).env = s.env := rfl

/-! ## invalidateHandle -/

@[simp] theorem invalidateHandle_handle : s.invalidateHandle.handle = { s.handle with hvalid := false } := rfl
@[simp] theorem invalidateHandle_latch : s.invalidateHandle.latch = s.latch := rfl
@[simp] theorem invalidateHandle_dp : s.invalidateHandle.dp = s.dp := rfl
@[simp] theorem invalidateHandle_phase : s.invalidateHandle.phase = s.phase := rfl
@[simp] theorem invalidateHandle_busy : s.invalidateHandle.busy = s.busy := rfl
@[simp] theorem invalidateHandle_status : s.invalidateHandle.status = s.status := rfl
@[simp] theorem invalidateHandle_rsp : s.invalidateHandle.rsp = s.rsp := rfl
@[simp] theorem invalidateHandle_outstanding : s.invalidateHandle.outstanding = s.outstanding := rfl
@[simp] theorem invalidateHandle_buf : s.invalidateHandle.buf = s.buf := rfl
@[simp] theorem invalidateHandle_log : s.invalidateHandle.log = s.log := rfl
@[simp] theorem invalidateHandle_env : s.invalidateHandle.env = s.env := rfl

/-! ## wbufRead -/

@[simp] theorem wbufRead_handle (i : Offset) : (s.wbufRead i).handle = s.handle := rfl
@[simp] theorem wbufRead_latch (i : Offset) : (s.wbufRead i).latch = s.latch := rfl
@[simp] theorem wbufRead_dp (i : Offset) : (s.wbufRead i).dp = s.dp := rfl
@[simp] theorem wbufRead_phase (i : Offset) : (s.wbufRead i).phase = s.phase := rfl
@[simp] theorem wbufRead_busy (i : Offset) : (s.wbufRead i).busy = s.busy := rfl
@[simp] theorem wbufRead_status (i : Offset) : (s.wbufRead i).status = s.status := rfl
@[simp] theorem wbufRead_rsp (i : Offset) : (s.wbufRead i).rsp = s.rsp := rfl
@[simp] theorem wbufRead_outstanding (i : Offset) : (s.wbufRead i).outstanding = s.outstanding := rfl
@[simp] theorem wbufRead_buf (i : Offset) : (s.wbufRead i).buf = { s.buf with idx := i, re := true } := rfl
@[simp] theorem wbufRead_log (i : Offset) : (s.wbufRead i).log = s.log ++ [.wbufRead i (s.wbufAt i.toNat)] := rfl
@[simp] theorem wbufRead_env (i : Offset) : (s.wbufRead i).env = s.env := rfl

/-! ## rbufWrite -/

@[simp] theorem rbufWrite_handle (i : Offset) (v : Byte) : (s.rbufWrite i v).handle = s.handle := rfl
@[simp] theorem rbufWrite_latch (i : Offset) (v : Byte) : (s.rbufWrite i v).latch = s.latch := rfl
@[simp] theorem rbufWrite_dp (i : Offset) (v : Byte) : (s.rbufWrite i v).dp = s.dp := rfl
@[simp] theorem rbufWrite_phase (i : Offset) (v : Byte) : (s.rbufWrite i v).phase = s.phase := rfl
@[simp] theorem rbufWrite_busy (i : Offset) (v : Byte) : (s.rbufWrite i v).busy = s.busy := rfl
@[simp] theorem rbufWrite_status (i : Offset) (v : Byte) : (s.rbufWrite i v).status = s.status := rfl
@[simp] theorem rbufWrite_rsp (i : Offset) (v : Byte) : (s.rbufWrite i v).rsp = s.rsp := rfl
@[simp] theorem rbufWrite_outstanding (i : Offset) (v : Byte) : (s.rbufWrite i v).outstanding = s.outstanding := rfl
@[simp] theorem rbufWrite_buf (i : Offset) (v : Byte) :
    (s.rbufWrite i v).buf = { s.buf with idx := i, we := true, wdata := v } := rfl
@[simp] theorem rbufWrite_log (i : Offset) (v : Byte) : (s.rbufWrite i v).log = s.log ++ [.rbufWrite i v] := rfl
@[simp] theorem rbufWrite_env (i : Offset) (v : Byte) :
    (s.rbufWrite i v).env = { s.env with rbuf := Memory.put s.env.rbuf i.toNat v } := rfl

/-! ## accept -/

@[simp] theorem accept_handle (w : CmdWord) : (s.accept w).handle = s.handle := rfl
@[simp] theorem accept_latch (w : CmdWord) :
    (s.accept w).latch = { op := CmdWord.op w, cOff := CmdWord.offset w, cLen := CmdWord.low w } := rfl
@[simp] theorem accept_dp (w : CmdWord) : (s.accept w).dp = s.dp := rfl
@[simp] theorem accept_phase (w : CmdWord) : (s.accept w).phase = s.phase := rfl
@[simp] theorem accept_busy (w : CmdWord) : (s.accept w).busy = true := rfl
@[simp] theorem accept_status (w : CmdWord) : (s.accept w).status = s.status := rfl
@[simp] theorem accept_rsp (w : CmdWord) : (s.accept w).rsp = s.rsp := rfl
@[simp] theorem accept_outstanding (w : CmdWord) : (s.accept w).outstanding = s.outstanding := rfl
@[simp] theorem accept_buf (w : CmdWord) : (s.accept w).buf = s.buf := rfl
@[simp] theorem accept_log (w : CmdWord) : (s.accept w).log = s.log := rfl
@[simp] theorem accept_env (w : CmdWord) : (s.accept w).env = s.env := rfl

/-! ## complete -/

@[simp] theorem complete_handle (st : Status) : (complete st s).handle = s.handle := rfl
@[simp] theorem complete_latch (st : Status) : (complete st s).latch = s.latch := rfl
@[simp] theorem complete_dp (st : Status) : (complete st s).dp = s.dp := rfl
@[simp] theorem complete_phase (st : Status) : (complete st s).phase = .idle := rfl
@[simp] theorem complete_busy (st : Status) : (complete st s).busy = false := rfl
@[simp] theorem complete_status (st : Status) : (complete st s).status = st := rfl
@[simp] theorem complete_rsp (st : Status) : (complete st s).rsp = some st := rfl
@[simp] theorem complete_outstanding (st : Status) : (complete st s).outstanding = s.outstanding := rfl
@[simp] theorem complete_buf (st : Status) : (complete st s).buf = s.buf := rfl
@[simp] theorem complete_log (st : Status) : (complete st s).log = s.log ++ [.response st] := rfl
@[simp] theorem complete_env (st : Status) : (complete st s).env = s.env := rfl

/-! ## raise -/

@[simp] theorem raise_handle (st : Status) : (raise st s).handle = s.handle := rfl
@[simp] theorem raise_latch (st : Status) : (raise st s).latch = s.latch := rfl
@[simp] theorem raise_dp (st : Status) : (raise st s).dp = s.dp := rfl
@[simp] theorem raise_phase (st : Status) : (raise st s).phase = .idle := rfl
@[simp] theorem raise_busy (st : Status) : (raise st s).busy = false := rfl
@[simp] theorem raise_status (st : Status) : (raise st s).status = st := rfl
@[simp] theorem raise_rsp (st : Status) : (raise st s).rsp = some st := rfl
@[simp] theorem raise_outstanding (st : Status) : (raise st s).outstanding = s.outstanding := rfl
@[simp] theorem raise_buf (st : Status) : (raise st s).buf = s.buf := rfl
@[simp] theorem raise_log (st : Status) : (raise st s).log = s.log ++ [.response st] := rfl
@[simp] theorem raise_env (st : Status) : (raise st s).env = s.env := rfl

/-! ## hardReset -/

@[simp] theorem hardReset_handle : s.hardReset.handle = { s.handle with hvalid := false } := rfl
@[simp] theorem hardReset_latch : s.hardReset.latch = s.latch := rfl
@[simp] theorem hardReset_dp : s.hardReset.dp = s.dp := rfl
@[simp] theorem hardReset_phase : s.hardReset.phase = .idle := rfl
@[simp] theorem hardReset_busy : s.hardReset.busy = false := rfl
@[simp] theorem hardReset_status : s.hardReset.status = .ok := rfl
@[simp] theorem hardReset_rsp : s.hardReset.rsp = none := rfl
@[simp] theorem hardReset_outstanding : s.hardReset.outstanding = none := rfl
@[simp] theorem hardReset_buf : s.hardReset.buf = { s.buf with re := false, we := false } := rfl
@[simp] theorem hardReset_log : s.hardReset.log = s.log := rfl
@[simp] theorem hardReset_env : s.hardReset.env = s.env := rfl

/-! ## chunkSetup -/

@[simp] theorem chunkSetup_handle (r : Rec) : (chunkSetup r s).handle = s.handle := rfl
@[simp] theorem chunkSetup_latch (r : Rec) : (chunkSetup r s).latch = s.latch := rfl
@[simp] theorem chunkSetup_dp (r : Rec) :
    (chunkSetup r s).dp =
      { s.dp with pos := pagePos r s.dp.curOff, chunk := chunkSize r (pagePos r s.dp.curOff) s.dp.rem, busb := busAddr r s.base s.dp.curOff, k := 0 } :=
  rfl
@[simp] theorem chunkSetup_phase (r : Rec) : (chunkSetup r s).phase = s.phase := rfl
@[simp] theorem chunkSetup_busy (r : Rec) : (chunkSetup r s).busy = s.busy := rfl
@[simp] theorem chunkSetup_status (r : Rec) : (chunkSetup r s).status = s.status := rfl
@[simp] theorem chunkSetup_rsp (r : Rec) : (chunkSetup r s).rsp = s.rsp := rfl
@[simp] theorem chunkSetup_outstanding (r : Rec) : (chunkSetup r s).outstanding = s.outstanding := rfl
@[simp] theorem chunkSetup_buf (r : Rec) : (chunkSetup r s).buf = s.buf := rfl
@[simp] theorem chunkSetup_log (r : Rec) : (chunkSetup r s).log = s.log := rfl
@[simp] theorem chunkSetup_env (r : Rec) : (chunkSetup r s).env = s.env := rfl

/-! ## startWrite -/

@[simp] theorem startWrite_handle (off len : Offset) (r : Rec) : (startWrite off len r s).handle = s.handle := rfl
@[simp] theorem startWrite_latch (off len : Offset) (r : Rec) : (startWrite off len r s).latch = s.latch := rfl
@[simp] theorem startWrite_dp (off len : Offset) (r : Rec) :
    (startWrite off len r s).dp =
      { curOff := off, idx := 0, rem := len, pos := pagePos r off, chunk := chunkSize r (pagePos r off) len, busb := busAddr r s.base off, k := 0 } :=
  rfl
@[simp] theorem startWrite_phase (off len : Offset) (r : Rec) : (startWrite off len r s).phase = .wBegin := rfl
@[simp] theorem startWrite_busy (off len : Offset) (r : Rec) : (startWrite off len r s).busy = s.busy := rfl
@[simp] theorem startWrite_status (off len : Offset) (r : Rec) : (startWrite off len r s).status = s.status := rfl
@[simp] theorem startWrite_rsp (off len : Offset) (r : Rec) : (startWrite off len r s).rsp = s.rsp := rfl
@[simp] theorem startWrite_outstanding (off len : Offset) (r : Rec) :
    (startWrite off len r s).outstanding = s.outstanding := rfl
@[simp] theorem startWrite_buf (off len : Offset) (r : Rec) : (startWrite off len r s).buf = s.buf := rfl
@[simp] theorem startWrite_log (off len : Offset) (r : Rec) : (startWrite off len r s).log = s.log := rfl
@[simp] theorem startWrite_env (off len : Offset) (r : Rec) : (startWrite off len r s).env = s.env := rfl

/-! ## startRead -/

@[simp] theorem startRead_handle (off len : Offset) (r : Rec) : (startRead off len r s).handle = s.handle := rfl
@[simp] theorem startRead_latch (off len : Offset) (r : Rec) : (startRead off len r s).latch = s.latch := rfl
@[simp] theorem startRead_dp (off len : Offset) (r : Rec) :
    (startRead off len r s).dp = { s.dp with curOff := off, idx := 0, rem := len, busb := busAddr r s.base off } := rfl
@[simp] theorem startRead_phase (off len : Offset) (r : Rec) : (startRead off len r s).phase = .rBeginW := rfl
@[simp] theorem startRead_busy (off len : Offset) (r : Rec) : (startRead off len r s).busy = s.busy := rfl
@[simp] theorem startRead_status (off len : Offset) (r : Rec) : (startRead off len r s).status = s.status := rfl
@[simp] theorem startRead_rsp (off len : Offset) (r : Rec) : (startRead off len r s).rsp = s.rsp := rfl
@[simp] theorem startRead_outstanding (off len : Offset) (r : Rec) :
    (startRead off len r s).outstanding = s.outstanding := rfl
@[simp] theorem startRead_buf (off len : Offset) (r : Rec) : (startRead off len r s).buf = s.buf := rfl
@[simp] theorem startRead_log (off len : Offset) (r : Rec) : (startRead off len r s).log = s.log := rfl
@[simp] theorem startRead_env (off len : Offset) (r : Rec) : (startRead off len r s).env = s.env := rfl

/-! ## advanceChunk -/

@[simp] theorem advanceChunk_handle : (advanceChunk s).handle = s.handle := rfl
@[simp] theorem advanceChunk_latch : (advanceChunk s).latch = s.latch := rfl
@[simp] theorem advanceChunk_dp :
    (advanceChunk s).dp =
      { s.dp with curOff := s.dp.curOff + s.dp.chunk.setWidth 16, idx := s.dp.idx + s.dp.chunk.setWidth 16, rem := s.dp.rem - s.dp.chunk.setWidth 16 } :=
  rfl
@[simp] theorem advanceChunk_phase : (advanceChunk s).phase = s.phase := rfl
@[simp] theorem advanceChunk_busy : (advanceChunk s).busy = s.busy := rfl
@[simp] theorem advanceChunk_status : (advanceChunk s).status = s.status := rfl
@[simp] theorem advanceChunk_rsp : (advanceChunk s).rsp = s.rsp := rfl
@[simp] theorem advanceChunk_outstanding : (advanceChunk s).outstanding = s.outstanding := rfl
@[simp] theorem advanceChunk_buf : (advanceChunk s).buf = s.buf := rfl
@[simp] theorem advanceChunk_log : (advanceChunk s).log = s.log := rfl
@[simp] theorem advanceChunk_env : (advanceChunk s).env = s.env := rfl

/-! ## advanceRead -/

@[simp] theorem advanceRead_handle : (advanceRead s).handle = s.handle := rfl
@[simp] theorem advanceRead_latch : (advanceRead s).latch = s.latch := rfl
@[simp] theorem advanceRead_dp : (advanceRead s).dp = { s.dp with idx := s.dp.idx + 1, rem := s.dp.rem - 1 } := rfl
@[simp] theorem advanceRead_phase : (advanceRead s).phase = s.phase := rfl
@[simp] theorem advanceRead_busy : (advanceRead s).busy = s.busy := rfl
@[simp] theorem advanceRead_status : (advanceRead s).status = s.status := rfl
@[simp] theorem advanceRead_rsp : (advanceRead s).rsp = s.rsp := rfl
@[simp] theorem advanceRead_outstanding : (advanceRead s).outstanding = s.outstanding := rfl
@[simp] theorem advanceRead_buf : (advanceRead s).buf = s.buf := rfl
@[simp] theorem advanceRead_log : (advanceRead s).log = s.log := rfl
@[simp] theorem advanceRead_env : (advanceRead s).env = s.env := rfl

/-! ## drive -/

@[simp] theorem drive_handle (o : TOp) : (s.drive o).handle = s.handle := rfl
@[simp] theorem drive_latch (o : TOp) : (s.drive o).latch = s.latch := rfl
@[simp] theorem drive_dp (o : TOp) : (s.drive o).dp = s.dp := rfl
@[simp] theorem drive_phase (o : TOp) : (s.drive o).phase = s.phase := rfl
@[simp] theorem drive_busy (o : TOp) : (s.drive o).busy = s.busy := rfl
@[simp] theorem drive_status (o : TOp) : (s.drive o).status = s.status := rfl
@[simp] theorem drive_rsp (o : TOp) : (s.drive o).rsp = s.rsp := rfl
@[simp] theorem drive_outstanding (o : TOp) : (s.drive o).outstanding = some o := rfl
@[simp] theorem drive_buf (o : TOp) : (s.drive o).buf = s.buf := rfl
@[simp] theorem drive_log (o : TOp) : (s.drive o).log = s.log ++ [.op o] := rfl
@[simp] theorem drive_env (o : TOp) : (s.drive o).env = s.env := rfl

/-! ## sample -/

@[simp] theorem sample_handle : s.sample.handle = s.handle := rfl
@[simp] theorem sample_latch : s.sample.latch = s.latch := rfl
@[simp] theorem sample_dp : s.sample.dp = s.dp := rfl
@[simp] theorem sample_phase : s.sample.phase = s.phase := rfl
@[simp] theorem sample_busy : s.sample.busy = s.busy := rfl
@[simp] theorem sample_status : s.sample.status = s.status := rfl
@[simp] theorem sample_rsp : s.sample.rsp = none := rfl
@[simp] theorem sample_outstanding : s.sample.outstanding = s.outstanding := rfl
@[simp] theorem sample_buf : s.sample.buf = { s.buf with re := false, we := false } := rfl
@[simp] theorem sample_log : s.sample.log = s.log := rfl

/-! ## The environment's updates -/

@[simp] theorem sample_inputs : s.sample.env.inputs = s.env.inputs.tail := rfl
@[simp] theorem sample_wbuf : s.sample.env.wbuf = Memory.putAll s.env.wbuf s.pins.wbuf := rfl
@[simp] theorem sample_rbuf : s.sample.env.rbuf = Memory.putAll s.env.rbuf s.pins.rbuf := rfl
@[simp] theorem sample_device : s.sample.env.device =
    s.env.device.map fun d => if s.restored then d.tick.abort none true else d.tick := rfl
@[simp] theorem sample_sessionOpen : s.sample.env.sessionOpen = (s.env.sessionOpen && !s.restored) := rfl

/-- A running command's transport is not restored. -/
theorem restored_of_ne_idle {s : State} (h : s.phase ≠ .idle) : s.restored = false := by simp [State.restored, h]

/-- Outside IDLE only time passes for the device. -/
theorem sample_device_of_ne_idle {s : State} (h : s.phase ≠ .idle) :
    s.sample.env.device = s.env.device.map Device.tick := by
  simp [restored_of_ne_idle h]

/-- Outside IDLE the session is as it was. -/
theorem sample_sessionOpen_of_ne_idle {s : State} (h : s.phase ≠ .idle) : s.sample.env.sessionOpen = s.env.sessionOpen := by
  simp [restored_of_ne_idle h]

variable (o : TOp) (dev : Option Device) (e : Env)

@[simp] theorem afterDone_inputs : (e.afterDone o dev).inputs = e.inputs := rfl
@[simp] theorem afterDone_wbuf : (e.afterDone o dev).wbuf = e.wbuf := rfl
@[simp] theorem afterDone_rbuf : (e.afterDone o dev).rbuf = e.rbuf := rfl
@[simp] theorem afterDone_sessionOpen : (e.afterDone o dev).sessionOpen = sessionAfter o e.sessionOpen := rfl
@[simp] theorem afterDone_device : (e.afterDone o dev).device = dev := rfl

@[simp] theorem afterFail_inputs (lo : Bool) : (e.afterFail o lo).inputs = e.inputs := by
  cases o <;> rfl
@[simp] theorem afterFail_wbuf (lo : Bool) : (e.afterFail o lo).wbuf = e.wbuf := by
  cases o <;> rfl
@[simp] theorem afterFail_rbuf (lo : Bool) : (e.afterFail o lo).rbuf = e.rbuf := by
  cases o <;> rfl

@[simp] theorem afterReset_inputs (b : Bool) (p : Option TOp) (lo : Bool) : (e.afterReset b p lo).inputs = e.inputs := by
  unfold Env.afterReset; split <;> rfl
@[simp] theorem afterReset_wbuf (b : Bool) (p : Option TOp) (lo : Bool) : (e.afterReset b p lo).wbuf = e.wbuf := by
  unfold Env.afterReset; split <;> rfl
@[simp] theorem afterReset_rbuf (b : Bool) (p : Option TOp) (lo : Bool) : (e.afterReset b p lo).rbuf = e.rbuf := by
  unfold Env.afterReset; split <;> rfl

/-! ## Views that depend on one field only -/

theorem base_congr {s t : State} (h : t.handle = s.handle) : t.base = s.base := by
  unfold State.base; rw [h]

theorem record_congr {s t : State} (h : t.handle = s.handle) : t.record = s.record := by
  unfold State.record; rw [h]

theorem wbufAt_congr {s t : State} (h : t.env.wbuf = s.env.wbuf) (i : Nat) : t.wbufAt i = s.wbufAt i := by
  unfold State.wbufAt; rw [h]

/-- The stored base reads back with bit 0 cleared: `BASE <- base & 0xFE` (30_encoding.md R73). -/
theorem storeHandle_base (b : Byte) (d : BitVec 16) : (s.storeHandle b d).base = b &&& 0xFE#8 := by
  show b.extractLsb' 1 7 ++ 0#1 = b &&& 0xFE#8
  revert b; decide

end Sys2Proof.Machine
end

