-- ==== Sys2Proof/Laws/Machine.lean ====
section
/-! SUPPORT. One inversion lemma per shared operation: everything it can answer. Provers cite these and do not unfold. -/

namespace Sys2Proof.Machine

/-! ## The dispatch table -/

theorem dispatch_mem {d : BitVec 16} {r : Rec} (h : dispatch d = some r) : r ∈ dispatchTable :=
  List.mem_of_find?_eq_some h

theorem dispatch_density {d : BitVec 16} {r : Rec} (h : dispatch d = some r) : r.density = d := by
  simpa using List.find?_some h

/-- A property of every legal record is checked row by row. -/
theorem dispatch_forall {P : Rec → Prop} (hP : ∀ r ∈ dispatchTable, P r) {d : BitVec 16} {r : Rec}
    (h : dispatch d = some r) : P r := hP r (dispatch_mem h)

/-! ## Checks and commands -/

/-- All that the checks at acceptance can answer (60_exceptions.md R186). -/
theorem admitTransfer_cases (off len : Offset) (start : Rec → State → State) (s : State) :
    (s.handle.hvalid = false ∧ admitTransfer off len start s = .next (raise .errNoHandle s)) ∨
    (s.handle.hvalid = true ∧ s.record = none ∧ admitTransfer off len start s = .fault .noRecord) ∨
    (∃ r, s.handle.hvalid = true ∧ s.record = some r ∧ inRange r off len = false ∧
      admitTransfer off len start s = .next (raise .errRange s)) ∨
    (∃ r, s.handle.hvalid = true ∧ s.record = some r ∧ inRange r off len = true ∧ len = 0 ∧
      admitTransfer off len start s = .next (complete .ok s)) ∨
    (∃ r, s.handle.hvalid = true ∧ s.record = some r ∧ inRange r off len = true ∧ len ≠ 0 ∧
      admitTransfer off len start s = .next (start r s)) := by
  unfold admitTransfer
  cases hv : s.handle.hvalid with
  | false => exact .inl ⟨rfl, rfl⟩
  | true =>
    cases hr : s.record with
    | none => exact .inr (.inl ⟨rfl, rfl, rfl⟩)
    | some r =>
      cases hi : inRange r off len with
      | false => exact .inr (.inr (.inl ⟨r, rfl, rfl, hi, by simp [hi]⟩))
      | true =>
        by_cases hl : len = 0
        · exact .inr (.inr (.inr (.inl ⟨r, rfl, rfl, hi, hl, by simp only [hi, if_pos, if_pos hl]⟩)))
        · exact .inr (.inr (.inr (.inr ⟨r, rfl, rfl, hi, hl, by simp only [hi, if_pos, if_neg hl]⟩)))

/-- `CREATE_HANDLE` answers one of two completions (40_dispatch_and_handle.md R110). -/
theorem execCreateHandle_cases (b : Byte) (d : BitVec 16) (s : State) :
    (dispatch d = none ∧ execCreateHandle b d s = .next (raise .errConfig s.invalidateHandle)) ∨
    (∃ r, dispatch d = some r ∧ execCreateHandle b d s = .next (complete .ok (s.storeHandle b d))) := by
  unfold execCreateHandle
  cases hd : dispatch d <;> simp

/-! ## The transport -/

/-- All that the transport can answer to an operation (43_transport.md R161). -/
theorem transportReply_cases (p : Sample) (o : TOp) (e : Env) :
    (p.answer = some .fail ∧ transportReply p o e = .failed (e.afterFail o p.leftOpen)) ∨
    (∃ v, p.answer = some (.done v) ∧ e.device = none ∧ transportReply p o e = .done v (e.afterDone o none)) ∨
    (p.answer = none ∧ e.device = none ∧ transportReply p o e = .waiting) ∨
    (∃ d, p.answer ≠ some .fail ∧ e.device = some d ∧ d.respond o = .silent ∧ transportReply p o e = .waiting) ∨
    (∃ d v d', p.answer ≠ some .fail ∧ e.device = some d ∧ d.respond o = .answered v d' ∧
      transportReply p o e = .done v (e.afterDone o (some d'))) ∨
    (∃ d, p.answer ≠ some .fail ∧ e.device = some d ∧ d.respond o = .outside ∧
      transportReply p o e = .refused .operationOutsideContract) := by
  unfold transportReply
  rcases p.answer with _ | _ | _ <;> rcases hd : e.device with _ | d
  all_goals simp
  all_goals rcases hr : d.respond o with _ | ⟨v, d'⟩ | _ <;> simp

/-- With no device the sample decides: done. -/
theorem transportReply_oracle_done {p : Sample} {o : TOp} {e : Env} {v : Byte} (hp : p.answer = some (.done v))
    (he : e.device = none) : transportReply p o e = .done v (e.afterDone o none) := by
  unfold transportReply; rw [hp, he]

/-- A fail the sample gives is the answer, device or not. -/
theorem transportReply_fail {p : Sample} {o : TOp} {e : Env} (hp : p.answer = some .fail) :
    transportReply p o e = .failed (e.afterFail o p.leftOpen) := by
  unfold transportReply; rw [hp]

/-- The answers in a list of samples: a *done* gives its byte, a silent step nothing. -/
@[simp] theorem answersOf_nil : answersOf [] = [] := rfl
theorem answersOf_cons_done {p : Sample} {v : Byte} (h : p.answer = some (.done v)) (ps : List Sample) :
    answersOf (p :: ps) = v :: answersOf ps := by simp [answersOf, Sample.reply, h]
theorem answersOf_cons_silent {p : Sample} (h : p.answer = none) (ps : List Sample) :
    answersOf (p :: ps) = answersOf ps := by simp [answersOf, Sample.reply, h]

/-- On density 1024 bit 16 of the counter is 0 (20_memory.md R62). -/
theorem heldAc_lt {r : Rec} (h : r.density = 1024) (n : Nat) : heldAc r n < 65536 := by
  unfold heldAc; rw [if_pos h]; exact Nat.mod_lt _ (by decide)

theorem heldAc_of_ne {r : Rec} (h : r.density ≠ 1024) (n : Nat) : heldAc r n = n := if_neg h

/-- Inside the array the counter goes on by one (20_memory.md R64), where bit 16 is not concerned. -/
theorem Device.nextAc_of_lt {r : Rec} {d : Device} (h : d.ac + 1 < capOf r) (h' : r.density ≠ 1024 ∨ d.ac + 1 < 65536) :
    d.nextAc r = d.ac + 1 := by
  unfold Device.nextAc heldAc
  rw [if_pos h]
  split
  · exact Nat.mod_eq_of_lt (h'.resolve_left (fun hn => hn ‹_›))
  · rfl

/-- All that a device reading out can answer to a read (R64): `MEM[AC]` or a free byte, the bus released after `RN`. -/
theorem Device.react_read {r : Rec} {d : Device} {o : TOp} (h : d.session = .reading) (ho : o = .readByteAck ∨ o = .readByteNak) :
    d.react r o = .answered (d.readValue r) (d.afterRead r (if o = .readByteNak then .released else .reading)) := by
  rcases ho with rfl | rfl <;> simp [Device.react, h]

/-! ## Steps -/

/-- All that a step can be (10_state.md R20 to R25). -/
theorem step_cases (s : State) :
    (s.pins.rst = true ∧ step s = .next (resetStep s.pins s.sample)) ∨
    (s.pins.rst = false ∧ s.phase = .idle ∧ s.pins.cmd = none ∧ step s = .next s.sample) ∨
    (∃ w, s.pins.rst = false ∧ s.phase = .idle ∧ s.pins.cmd = some w ∧ step s = acceptStep w s.sample) ∨
    (s.pins.rst = false ∧ s.phase ≠ .idle ∧ step s = sequencerStep s.pins s.sample) := by
  have hph : s.sample.phase = s.phase := rfl
  unfold step engineStep
  rw [hph]
  cases hr : s.pins.rst
  · by_cases hp : s.phase = .idle
    · cases hc : s.pins.cmd <;> simp [hp]
    · simp [hp]
  · simp

/-- All that a sequencer step can be: the outstanding operation is settled, or the phase's operation is issued and settled
in the same step, or a `T.begin` meets an open session. -/
theorem sequencerStep_cases (p : Sample) (s : State) :
    (∃ o, s.outstanding = some o ∧ sequencerStep p s = settle p o s) ∨
    (s.outstanding = none ∧ s.nextOp = none ∧ sequencerStep p s = .next s) ∨
    (∃ o, s.outstanding = none ∧ s.nextOp = some o ∧ o.isBegin = true ∧ s.env.sessionOpen = true ∧
      sequencerStep p s = .refused .beginInOpenSession) ∨
    (∃ o, s.outstanding = none ∧ s.nextOp = some o ∧ (o.isBegin && s.env.sessionOpen) = false ∧
      sequencerStep p s = settle p o (s.fetchData.drive o)) := by
  unfold sequencerStep
  cases ho : s.outstanding with
  | some o => simp
  | none =>
    cases hn : s.nextOp with
    | none => simp
    | some o =>
      cases hb : (o.isBegin && s.env.sessionOpen) <;> simp_all

/-- Only IDLE issues nothing. -/
theorem nextOp_isSome {s : State} (h : s.phase ≠ .idle) : s.nextOp.isSome = true := by
  unfold State.nextOp
  cases hp : s.phase <;> simp_all

/-- `fetchData` touches the buffer port and the record only. -/
theorem fetchData_frame (s : State) :
    s.fetchData.handle = s.handle ∧ s.fetchData.latch = s.latch ∧ s.fetchData.dp = s.dp ∧ s.fetchData.phase = s.phase ∧
    s.fetchData.busy = s.busy ∧ s.fetchData.status = s.status ∧ s.fetchData.rsp = s.rsp ∧
    s.fetchData.outstanding = s.outstanding ∧ s.fetchData.env = s.env := by
  unfold State.fetchData
  split <;> simp

/-! ## Instructions are well formed by their types -/

theorem wellFormed_all (i : Instr) : i.wellFormed = true := by
  cases i <;> simp [Instr.wellFormed, Instr.toAsm, AsmCmd.wellFormed] <;> omega

end Sys2Proof.Machine
end

