-- ==== Sys2Proof/Laws/Memory.lean ====
section
/-! SUPPORT. The memories' laws: read after write, and that every operation keeps the canonical form. -/

namespace Sys2Proof.Machine

/-! ## Read after write -/

@[simp] theorem Memory.get?_put_same (m : Memory) (a : Nat) (v : Byte) : Memory.get? (Memory.put m a v) a = some v := by
  induction m with
  | nil => simp [Memory.put, Memory.get?]
  | cons c rest ih =>
    obtain ⟨b, w⟩ := c
    rcases Nat.lt_trichotomy a b with h | h | h
    · simp [Memory.put, Memory.get?, h]
    · simp [Memory.put, Memory.get?, h]
    · have h1 : ¬ a < b := by omega
      have h2 : a ≠ b := by omega
      simp [Memory.put, Memory.get?, h1, h2, ih]

theorem Memory.get?_put_other (m : Memory) {a b : Nat} (v : Byte) (h : b ≠ a) :
    Memory.get? (Memory.put m a v) b = Memory.get? m b := by
  induction m with
  | nil => simp [Memory.put, Memory.get?, h]
  | cons c rest ih =>
    obtain ⟨c, w⟩ := c
    by_cases h1 : a < c
    · simp [Memory.put, Memory.get?, h1, h]
    · by_cases h2 : a = c
      · subst h2; simp [Memory.put, Memory.get?, h]
      · simp [Memory.put, Memory.get?, h1, h2, ih]

/-- In canonical form an address below every listed one holds nothing. -/
theorem Memory.get?_none_of_lt {m : Memory} {a : Nat} (h : ∀ c ∈ m, a < c.1) : Memory.get? m a = none := by
  induction m with
  | nil => rfl
  | cons c rest ih =>
    have h1 : a ≠ c.1 := (h c (by simp)).ne
    simp [Memory.get?, h1, ih fun d hd => h d (by simp [hd])]

theorem Memory.get?_erase_same {m : Memory} (hm : Memory.wf m) (a : Nat) : Memory.get? (Memory.erase m a) a = none := by
  induction m with
  | nil => rfl
  | cons c rest ih =>
    obtain ⟨hlt, hrest⟩ := List.pairwise_cons.1 hm
    by_cases h : a = c.1
    · subst h; simpa [Memory.erase] using Memory.get?_none_of_lt hlt
    · simp [Memory.erase, Memory.get?, h, ih hrest]

theorem Memory.get?_erase_other (m : Memory) {a b : Nat} (h : b ≠ a) :
    Memory.get? (Memory.erase m a) b = Memory.get? m b := by
  induction m with
  | nil => rfl
  | cons c rest ih =>
    by_cases h1 : a = c.1
    · subst h1; simp [Memory.erase, Memory.get?, h]
    · simp [Memory.erase, Memory.get?, h1, ih]

/-! ## The canonical form is kept -/

theorem Memory.mem_put {m : Memory} {a : Nat} {v : Byte} {c : Host.Cell} (h : c ∈ Memory.put m a v) :
    c = (a, v) ∨ c ∈ m := by
  induction m with
  | nil => left; simpa [Memory.put] using h
  | cons d rest ih =>
    unfold Memory.put at h
    split at h
    · simpa using h
    · split at h
      · rcases List.mem_cons.1 h with rfl | h
        · simp
        · simp [h]
      · rcases List.mem_cons.1 h with rfl | h
        · simp
        · rcases ih h with rfl | h <;> simp_all

theorem Memory.mem_erase {m : Memory} {a : Nat} {c : Host.Cell} (h : c ∈ Memory.erase m a) : c ∈ m := by
  induction m with
  | nil => exact h
  | cons d rest ih =>
    unfold Memory.erase at h
    split at h
    · simp [h]
    · rcases List.mem_cons.1 h with rfl | h
      · simp
      · simp [ih h]

theorem Memory.put_wf {m : Memory} (hm : Memory.wf m) (a : Nat) (v : Byte) : Memory.wf (Memory.put m a v) := by
  induction m with
  | nil => exact List.pairwise_singleton _ _
  | cons c rest ih =>
    obtain ⟨hlt, hrest⟩ := List.pairwise_cons.1 hm
    unfold Memory.put
    split
    · rename_i h
      refine List.pairwise_cons.2 ⟨fun d hd => ?_, hm⟩
      rcases List.mem_cons.1 hd with rfl | hd
      · exact h
      · exact Nat.lt_trans h (hlt d hd)
    · split
      · rename_i h; exact List.pairwise_cons.2 ⟨fun d hd => h ▸ hlt d hd, hrest⟩
      · refine List.pairwise_cons.2 ⟨fun d hd => ?_, ih hrest⟩
        rcases Memory.mem_put hd with rfl | hd
        · show c.1 < a; omega
        · exact hlt d hd

theorem Memory.erase_wf {m : Memory} (hm : Memory.wf m) (a : Nat) : Memory.wf (Memory.erase m a) := by
  induction m with
  | nil => exact hm
  | cons c rest ih =>
    obtain ⟨hlt, hrest⟩ := List.pairwise_cons.1 hm
    unfold Memory.erase
    split
    · exact hrest
    · exact List.pairwise_cons.2 ⟨fun d hd => hlt d (Memory.mem_erase hd), ih hrest⟩

theorem Memory.restore_wf {m : Memory} (hm : Memory.wf m) (a : Nat) (o : Option Byte) : Memory.wf (Memory.restore m a o) := by
  cases o with
  | none => exact Memory.erase_wf hm a
  | some v => exact Memory.put_wf hm a v

theorem Memory.putAll_wf {m : Memory} (hm : Memory.wf m) (cells : List Host.Cell) : Memory.wf (Memory.putAll m cells) := by
  induction cells generalizing m with
  | nil => exact hm
  | cons c rest ih => exact ih (Memory.put_wf hm c.1 c.2)

/-- Equal memories are equal data: two canonical memories that hold the same bytes are the same list. -/
theorem Memory.ext_of_wf {m n : Memory} (hm : Memory.wf m) (hn : Memory.wf n)
    (h : ∀ a, Memory.get? m a = Memory.get? n a) : m = n := by
  induction m generalizing n with
  | nil =>
    cases n with
    | nil => rfl
    | cons c rest => simpa [Memory.get?] using h c.1
  | cons c rest ih =>
    cases n with
    | nil => simpa [Memory.get?] using h c.1
    | cons d rest' =>
      obtain ⟨hc, hrest⟩ := List.pairwise_cons.1 hm
      obtain ⟨hd, hrest'⟩ := List.pairwise_cons.1 hn
      obtain ⟨a, v⟩ := c
      obtain ⟨b, w⟩ := d
      have hab : a = b := by
        rcases Nat.lt_trichotomy a b with hlt | heq | hgt
        · have hnone : Memory.get? ((b, w) :: rest') a = none := Memory.get?_none_of_lt fun c hc' => by
            rcases List.mem_cons.1 hc' with rfl | hc'
            · exact hlt
            · exact Nat.lt_trans hlt (hd c hc')
          have h1 := h a
          rw [hnone] at h1
          simp [Memory.get?] at h1
        · exact heq
        · have hnone : Memory.get? ((a, v) :: rest) b = none := Memory.get?_none_of_lt fun c hc' => by
            rcases List.mem_cons.1 hc' with rfl | hc'
            · exact hgt
            · exact Nat.lt_trans hgt (hc c hc')
          have h1 := h b
          rw [hnone] at h1
          simp [Memory.get?] at h1
      subst hab
      have hvw : v = w := by simpa [Memory.get?] using h a
      subst hvw
      have htail : rest = rest' := ih hrest hrest' fun x => by
        by_cases hx : x = a
        · subst hx; rw [Memory.get?_none_of_lt hc, Memory.get?_none_of_lt hd]
        · simpa [Memory.get?, hx] using h x
      rw [htail]

/-! ## The device's operations keep its memory canonical -/

theorem Device.store_wf {d : Device} (h : Memory.wf d.mem) (r : Rec) (v : Byte) : Memory.wf (d.store r v).mem := by
  unfold Device.store
  split
  · exact Memory.put_wf h _ _
  · exact List.Pairwise.nil

theorem Device.unwind_wf (draw : Nat) (undo : List (Nat × Option Byte)) {m : Memory} (h : Memory.wf m) :
    Memory.wf (Device.unwind draw undo m) := by
  induction undo generalizing m with
  | nil => exact h
  | cons c rest ih =>
    unfold Device.unwind
    split
    · exact ih h
    · exact ih (Memory.restore_wf h _ _)

theorem Device.cutChunk_wf {d : Device} (h : Memory.wf d.mem) (o : Option TOp) : Memory.wf (d.cutChunk o).mem := by
  refine Device.unwind_wf _ _ ?_
  unfold Device.mayStore
  split
  · exact Device.store_wf h _ _
  · exact h

/-- The counter's cut touches the counter only. -/
theorem Device.cutCounter_frame (o : Option TOp) (d : Device) :
    (d.cutCounter o).mem = d.mem ∧ (d.cutCounter o).epoch = d.epoch ∧ (d.cutCounter o).wcycle = d.wcycle ∧
    (d.cutCounter o).density = d.density ∧ (d.cutCounter o).strap = d.strap := by
  unfold Device.cutCounter
  split <;> [skip; split] <;> simp

/-- With nothing outstanding and no data byte in flight a cut changes nothing. -/
theorem Device.cut_none {d : Device} (h : d.dataInFlight none = false) : d.cut none = d := by
  unfold Device.cut Device.cutCounter
  rw [h]
  cases hd : dispatch d.density with
  | none => simp [hd]
  | some r => simp [hd, Device.counterInFlight]

@[simp] theorem Device.abort_ended_session (d : Device) (o : Option TOp) : (d.abort o true).session = .idle := rfl
@[simp] theorem Device.abort_ended_undo (d : Device) (o : Option TOp) : (d.abort o true).undo = [] := rfl
@[simp] theorem Device.abort_open (d : Device) (o : Option TOp) : d.abort o false = d.cut o := rfl
@[simp] theorem Device.abort_mem (d : Device) (o : Option TOp) (ended : Bool) :
    (d.abort o ended).mem = (if d.dataInFlight o then d.cutChunk o else d).mem := by
  cases ended <;> exact (Device.cutCounter_frame o _).1
@[simp] theorem Device.abort_epoch (d : Device) (o : Option TOp) (ended : Bool) :
    (d.abort o ended).epoch = (if d.dataInFlight o then d.cutChunk o else d).epoch := by
  cases ended <;> exact (Device.cutCounter_frame o _).2.1
@[simp] theorem Device.abort_wcycle (d : Device) (o : Option TOp) (ended : Bool) :
    (d.abort o ended).wcycle = (if d.dataInFlight o then d.cutChunk o else d).wcycle := by
  cases ended <;> exact (Device.cutCounter_frame o _).2.2.1

theorem Device.abort_wf {d : Device} (h : Memory.wf d.mem) (o : Option TOp) (ended : Bool) :
    Memory.wf (d.abort o ended).mem := by
  rw [Device.abort_mem]
  split
  · exact Device.cutChunk_wf h o
  · exact h

theorem Device.react_wf {d d' : Device} {r : Rec} {o : TOp} {v : Byte} (h : Memory.wf d.mem)
    (hr : d.react r o = .answered v d') : Memory.wf d'.mem := by
  unfold Device.react at hr
  split at hr <;> split at hr <;> cases hr
  all_goals first
    | exact Device.store_wf h _ _
    | exact h
    | (unfold Device.takeAddress; split <;> [split; skip] <;> exact h)
    | (unfold Device.close; split <;> exact h)

theorem Device.respond_wf {d d' : Device} {o : TOp} {v : Byte} (h : Memory.wf d.mem)
    (hr : d.respond o = .answered v d') : Memory.wf d'.mem := by
  unfold Device.respond at hr
  split at hr
  · cases hr
  · exact Device.react_wf h hr

theorem reset_memories_wf : Memory.wf State.reset.env.wbuf ∧ Memory.wf State.reset.env.rbuf := by decide

end Sys2Proof.Machine
end

