-- ==== Sys2Proof/Laws/PerInstr.lean ====
section
/-! SUPPORT. Facts about every instruction as syntax, one lemma per constructor. -/

namespace Sys2Proof.Laws.MatchMask

/-- The encoded word has its row's match value under its row's mask (30_encoding.md R74; spec/opcode_table.json). -/
def Statement (i : Instr) : Prop := encode i &&& rowMask i = rowMatch i

theorem createHandle (base : Byte) (density : BitVec 16) : Statement (.createHandle base density) := by
  show (0b01#2 ++ 0#8 ++ base ++ density : BitVec 34) &&& 0x3FF000000#34 = 0x100000000#34
  refine BitVec.eq_of_getLsbD_eq fun k hk => ?_
  simp only [BitVec.getLsbD_and, BitVec.getLsbD_append]
  interval_cases k <;> simp

theorem write (offset length : Offset) : Statement (.write offset length) := by
  show (0b10#2 ++ offset ++ length : BitVec 34) &&& 0x300000000#34 = 0x200000000#34
  refine BitVec.eq_of_getLsbD_eq fun k hk => ?_
  simp only [BitVec.getLsbD_and, BitVec.getLsbD_append]
  interval_cases k <;> simp

theorem read (offset length : Offset) : Statement (.read offset length) := by
  show (0b11#2 ++ offset ++ length : BitVec 34) &&& 0x300000000#34 = 0x300000000#34
  refine BitVec.eq_of_getLsbD_eq fun k hk => ?_
  simp only [BitVec.getLsbD_and, BitVec.getLsbD_append]
  interval_cases k <;> simp

end Sys2Proof.Laws.MatchMask
end

