-- ==== Sys2Proof/Tests/Slice0.lean ====
section
/-! SUPPORT. The model's own tests, expected results from spec/ (the vector or rule each test names), and a witness for the
hypotheses of every statement. -/

namespace Sys2Proof.Tests

open Sys2Proof Sys2Proof.Machine

/-! ## Small states -/

/-- The record of density 8 and of density 32, as 40_dispatch_and_handle.md R101 has them. -/
def r8 : Rec := ⟨8, .C, .M2, 16, 2, 0x0300, 1, 1024, 1024⟩
def r32 : Rec := ⟨32, .E, .M3, 32, 0, 0x0000, 2, 4096, 4096⟩

/-- A valid handle with `BASE = 0xA0`. -/
def handleA0 (d : BitVec 16) : Handle := { hvalid := true, base7 := 0x50, density := d }

/-- A state with a handle, a phase, datapath registers, and inputs to come. -/
def mk (h : Handle) (ph : Phase) (dp : Datapath) (inputs : List Sample) : State :=
  { State.reset with
    handle := h
    phase := ph
    busy := decide (ph ≠ .idle)
    dp := dp
    env := { State.reset.env with inputs := inputs } }

def dp0 : Datapath := State.reset.dp

/-- An idle engine with a handle of density `d`, offered the word `w`. -/
def offered (d : BitVec 16) (w : CmdWord) : State := mk (handleA0 d) .idle dp0 [Sample.offering w]

/-- The registers of `WRITE 0x000E, 4` on density 8 in its first chunk (95_test_vectors.md V316). -/
def dpW (k : BitVec 9) : Datapath := { curOff := 0x000E, idx := 0, rem := 4, pos := 14, chunk := 2, busb := 0xA0, k := k }

/-- The registers of `READ 0x0010, 2` on density 8 before its data. -/
def dpR (idx rem : Offset) : Datapath := { dp0 with curOff := 0x0010, idx := idx, rem := rem, busb := 0xA0 }

/-- A reference device of density 8 at `0xA0`, in a session, its counter at an address. -/
def dev8 (ac : Nat) (session : DevSession) : Device :=
  { density := 8, strap := 0xA0, mem := [], ac := ac, wcycle := 0, session := session, undo := [], epoch := 0, draws := 0 }

/-- Whether an outcome is a next state with a property. -/
def nextIs (p : State → Bool) : Host.Outcome State Fault Refusal → Bool
  | .next t => p t
  | .fault _ => false
  | .refused _ => false

/-! ## Words written out from the encoding tables (30_encoding.md R72; 95_test_vectors.md V310) -/

theorem test_decode_create_bits :
    decode (0b01#2 ++ 0b00000000#8 ++ 0b10100000#8 ++ 0b0000000000001000#16) = .ok (.createHandle 0xA0 8) := by decide
theorem test_decode_write_bits :
    decode (0b10#2 ++ 0b0000000000000101#16 ++ 0b0000000000000100#16) = .ok (.write 0x0005 4) := by decide
theorem test_decode_read_bits :
    decode (0b11#2 ++ 0b0000011010101011#16 ++ 0b0000000000000010#16) = .ok (.read 0x06AB 2) := by decide
theorem test_decode_create : decode 0x100A00400#34 = .ok (.createHandle 0xA0 1024) := by decide
theorem test_decode_write : decode 0x2FFFFFFFF#34 = .ok (.write 0xFFFF 65535) := by decide
theorem test_decode_read : decode 0x3FFFF0001#34 = .ok (.read 0xFFFF 1) := by decide
theorem test_decode_reserved_field : decode 0x1FFA00008#34 = .error .reservedField := by decide
theorem test_decode_reserved_opcode : decode 0x0FFFFFFFF#34 = .error .reservedOpcode := by decide
theorem test_table_word : decodeTableWord 40 0x21FFE0002 = some (.write 0x1FFE 2) := by decide
theorem test_table_word_too_wide : decodeTableWord 40 0x421FFE0002 = none := by decide

/-! ## The assembler (R77), and an ill-formed command for each check -/

theorem test_assemble_create : assemble "CREATE_HANDLE 0xA0, 8".toList = some 0x100A00008#34 := by decide
theorem test_assemble_write : assemble "  WRITE 0x0000, 20 ; comment".toList = some 0x200000014#34 := by decide
theorem test_assemble_rejects : assemble "READ 65536, 2".toList = none := by decide

theorem test_illformed_base : (AsmCmd.createHandle 256 8).wellFormed = false := by decide
theorem test_illformed_density : (AsmCmd.createHandle 0xA0 65536).wellFormed = false := by decide
theorem test_illformed_write_offset : (AsmCmd.write 65536 1).wellFormed = false := by decide
theorem test_illformed_write_length : (AsmCmd.write 0 65536).wellFormed = false := by decide
theorem test_illformed_read_offset : (AsmCmd.read 65536 1).wellFormed = false := by decide
theorem test_illformed_read_length : (AsmCmd.read 0 65536).wellFormed = false := by decide
theorem test_wellformed_limit : (AsmCmd.write 65535 65535).wellFormed = true := by decide

/-! ## Dispatch and translation -/

/-- V304: (page size, folded bits, address bytes) per density. -/
theorem test_dispatch_rows :
    dispatchTable.map (fun r => (r.density.toNat, pageOf r, r.foldBits.toNat, addrBytesOf r)) =
      [(1, 8, 0, 1), (2, 8, 0, 1), (4, 16, 1, 1), (8, 16, 2, 1), (16, 16, 3, 1), (32, 32, 0, 2), (64, 32, 0, 2),
        (128, 64, 0, 2), (256, 64, 0, 2), (512, 128, 0, 2), (1024, 256, 0, 2)] := by decide

/-- V314: density 16 at `0x06AB`, density 8 at `0x03FF` with base `0xA8`, density 512 at `0xFF7F`. -/
theorem test_translation :
    (dispatch 16).map (fun r => xlate r 0xA0 0x06AB) = some (0xAC, [0xAB]) ∧
    (dispatch 8).map (fun r => xlate r 0xA8 0x03FF) = some (0xAE, [0xFF]) ∧
    (dispatch 512).map (fun r => xlate r 0xA0 0xFF7F) = some (0xA0, [0xFF, 0x7F]) := by decide

/-- V315: chunk starts and sizes. -/
theorem test_chunks :
    chunks 16 0x02F8 12 = [(0x02F8, 8), (0x0300, 4)] ∧ chunks 8 0x0000 24 = [(0, 8), (8, 8), (16, 8)] ∧
    chunks 256 0x00FF 2 = [(0x00FF, 1), (0x0100, 1)] := by decide

/-! ## One step of each command -/

/-- V313: base `0xA1` is stored as `0xA0`. -/
theorem test_create_drops_base_bit0 :
    nextIs (fun t => t.handle.hvalid && decide (t.base = 0xA0) && decide (t.handle.density = 16) && decide (t.status = .ok))
      (step (offered 8 0x100A10010#34)) = true := by decide

/-- V318: an illegal density on a valid handle is `ERR_CONFIG` and clears `HVALID`. -/
theorem test_create_illegal_density :
    nextIs (fun t => !t.handle.hvalid && decide (t.status.code = 1) && decide (t.rsp = some .errConfig) && decide (t.log = [.response .errConfig]))
      (step (offered 8 0x100A00003#34)) = true := by decide

/-- V333: the acceptance of `WRITE 0x1FFE, 2` on density 64. -/
theorem test_write_accept :
    nextIs (fun t => decide (t.phase = .wBegin) && t.busy &&
        decide (t.dp = { curOff := 0x1FFE, idx := 0, rem := 2, pos := 30, chunk := 2, busb := 0xA0, k := 0 }))
      (step (offered 64 0x21FFE0002#34)) = true := by decide

/-- V318: `WRITE 0x0401, 0` on density 8 is `ERR_RANGE`, before the length-0 completion. -/
theorem test_write_range_before_length :
    nextIs (fun t => decide (t.status.code = 2) && decide (t.phase = .idle) && !t.busy)
      (step (offered 8 0x204010000#34)) = true := by decide

/-- V317: density 4, `READ 0x0100, 1`: the dummy write's bus byte is `0xA2`. -/
theorem test_read_accept :
    nextIs (fun t => decide (t.phase = .rBeginW) && decide (t.dp.busb = 0xA2) && decide (t.dp.rem = 1))
      (step (offered 4 0x301000001#34)) = true := by decide

/-- V333 step 7 of command 3: the last byte is pulled with `RN` and stored. -/
theorem test_read_last_byte :
    nextIs (fun t => decide (t.phase = .rEnd) && decide (t.log = [.op .readByteNak, .rbufWrite 1 0x3C]) &&
        decide (t.rbufAt 1 = 0x3C))
      (step (mk (handleA0 64) .rData (dpR 1 1) [Sample.done 0x3C])) = true := by decide

/-- V318: reserved words. -/
theorem test_reserved_word :
    nextIs (fun t => decide (t.status.code = 4) && t.handle.hvalid) (step (offered 8 0x101A00003#34)) = true := by decide

/-- V318: no handle. -/
theorem test_no_handle :
    nextIs (fun t => decide (t.status.code = 3)) (step (State.reset.withFetchWord 40 0x2FFFFFFFF)) = true := by decide

/-! ## The transport's answers, and the device -/

/-- V319: the second chunk's begin fails: `ERR_TRANSPORT`, no `E`, the handle unchanged. -/
theorem test_write_begin_fails :
    nextIs (fun t => decide (t.status.code = 5) && decide (t.phase = .idle) && t.handle.hvalid &&
        decide (opsOf t.log = [.beginSession 0xA0]) && !t.env.sessionOpen)
      (step (mk (handleA0 8) .wBegin (dpW 0) [Sample.failing true])) = true := by decide

/-- V320: never answered: `W_BEGIN`, `BUSY = 1`, `t_req = 1`, no response. -/
theorem test_unanswered :
    nextIs (fun t => decide (t.phase = .wBegin) && t.busy && t.tReq && decide (t.tOp = 1) && decide (t.rsp = none))
      (step (mk (handleA0 8) .wBegin (dpW 0) [])) = true := by decide

/-- V321: the device's counter wraps from `0x0F` to `0x00` inside page 0. -/
theorem test_device_page_wrap :
    (match (dev8 0x0F (.data true)).respond (.writeByte 0x02) with
      | .answered _ d => decide (d.ac = 0x00) && decide (d.byteAt 0x0F = 0x02)
      | _ => false) = true := by decide

/-- R64: after `RN` the device releases the bus; the end of the session is all it still answers. -/
theorem test_device_releases_after_nak :
    (match (dev8 0x10 .reading).respond .readByteNak with
      | .answered _ d => decide (d.session = .released) && decide (d.ac = 0x11) && decide (d.respond .readByteAck = .outside) &&
          decide (d.respond .endSession ≠ .outside)
      | _ => false) = true := by decide

/-- R62, R81: density 32, `0x0005` is sent as `00 05`. -/
theorem test_device_two_address_bytes :
    (match Device.respond (.writeByte 0x00) { dev8 7 (.address 0 none) with density := 32 } with
      | .answered _ d => (match d.respond (.writeByte 0x05) with
        | .answered _ e => decide (d.ac = 7) && decide (e.ac = 5) && decide (e.session = .data false)
        | _ => false)
      | _ => false) = true := by decide

/-- R63: a read session that fails starts no write cycle, and a running cycle is not cut. -/
theorem test_cut_read_leaves_write_cycle :
    (Device.abort (some .readByteAck) true (dev8 3 .reading)).wcycle = 0 ∧
    (Device.abort (some (.beginSession 0xA0)) true { dev8 3 .idle with wcycle := 5 }).wcycle = 5 := by decide

/-- R210: a reset that finds the transport between two operations of a dummy write, the session left open, does not touch the
device. -/
theorem test_reset_leaves_device :
    (let d := { dev8 7 (.address 0 (some 3)) with density := 64 }
     let p := { Sample.quiet with rst := true, leftOpen := true }
     let s := { mk (handleA0 64) .rAlo dp0 [] with
       env := { State.reset.env with inputs := [p], sessionOpen := true, device := some d } }
     nextIs (fun t => decide (t.env.device = some d) && t.env.sessionOpen && decide (t.phase = .idle)) (step s)) = true := by decide

/-- R62, R64, G6: on density 1024 bit 16 of the counter is 0 after the byte at `0xFFFF`. -/
theorem test_device_bit16 :
    (match Device.respond .readByteAck { dev8 0xFFFF .reading with density := 1024 } with
      | .answered _ d => decide (d.ac = 0)
      | _ => false) = true := by decide

/-- R227: the host restores the transport, and the device's session is over. -/
theorem test_restore_ends_session :
    (let s := { State.reset with
       env := { State.reset.env with inputs := [{ Sample.quiet with restore := true }], sessionOpen := true, device := some (dev8 3 .reading) } }
     nextIs (fun t => !t.env.sessionOpen && decide (t.env.device = some (dev8 3 .idle))) (step s)) = true := by decide

/-! ## Witnesses: states and operands that meet each statement's hypotheses -/

theorem witness_DecodeOfEncodeIsTheInstruction : (Instr.createHandle 0xFF 0xFFFF).wellFormed = true := by decide
theorem witness_EncodeOfDecodeIsTheWord : decode 0x100FFFFFF#34 = .ok (.createHandle 0xFF 0xFFFF) := by decide
theorem witness_DecoderMatchesExactlyOneRow :
    CmdWord.op 0x0FFFFFFFF#34 = 0b00#2 ∧ (CmdWord.op 0x100FFFFFF#34 = 0b01#2 ∧ CmdWord.rsvd 0x100FFFFFF#34 = 0#8) ∧
    (CmdWord.op 0x101000000#34 = 0b01#2 ∧ CmdWord.rsvd 0x101000000#34 ≠ 0#8) ∧
    CmdWord.op 0x2FFFFFFFF#34 = 0b10#2 ∧ CmdWord.op 0x300000000#34 = 0b11#2 := by decide
theorem witness_LegalDensitiesAreThePowersUpToTen : ¬ ∃ k, k ≤ 10 ∧ (2048#16).toNat = 2 ^ k := by
  rintro ⟨k, hk, h⟩
  interval_cases k <;> simp at h
theorem witness_DispatchTableFacts :
    (∃ r, dispatch 4 = some r ∧ r.foldBits ≠ 0) ∧
    (∃ r r', dispatch 1 = some r ∧ dispatch 1024 = some r' ∧ (1#16).toNat ≤ (1024#16).toNat) :=
  ⟨⟨_, rfl, by decide⟩, _, _, rfl, rfl, by decide⟩
theorem witness_RecordColumnsAreComputed : ∃ r, dispatch 1024 = some r := ⟨_, rfl⟩
theorem witness_BusAddressByteBitByBit : ∃ r, dispatch 16 = some r ∧ r.family = .D := ⟨_, rfl, by decide⟩
theorem witness_MemoryAddressBytesHighFirst :
    (∃ r, dispatch 16 = some r ∧ r.family = .D) ∧ ∃ r, dispatch 32 = some r ∧ r.family = .E :=
  ⟨⟨_, rfl, by decide⟩, _, rfl, by decide⟩
theorem witness_TranslationIsInjective :
    (∃ r, dispatch 16 = some r ∧ r.addrBytes = 1) ∧ (∃ r, dispatch 64 = some r ∧ r.addrBytes = 2) ∧
    ∃ r, dispatch 8 = some r ∧ (offered 8 0).base &&& (r.foldMask >>> 7).setWidth 8 = 0#8 ∧
      (0x03FF#16).toNat < reachOf r ∧ xlate r (offered 8 0).base 0x03FF = xlate r (offered 8 0).base 0x03FF :=
  ⟨⟨_, rfl, by decide⟩, ⟨_, rfl, by decide⟩, _, rfl, by decide, by decide, rfl⟩
theorem witness_PagesStayInsideBlocks :
    dispatch 8 = some r8 ∧ 0xFC % pageOf r8 + 4 ≤ pageOf r8 ∧ 3 < 4 := by decide

theorem witness_StepRunsTheDecodedCommand :
    (offered 8 0x200000014#34).offers 0x200000014#34 ∧ decode 0x200000014#34 = .ok (.write 0 20) := by decide
theorem witness_IdleEngineWaits :
    State.reset.pins.rst = false ∧ State.reset.phase = .idle ∧ State.reset.pins.cmd = none := by decide
theorem witness_ReservedWordChangesNothingElse :
    (offered 8 0x101A00008#34).offers 0x101A00008#34 ∧ decode 0x101A00008#34 = .error .reservedField := by decide
theorem witness_CreateHandleWordOutcomes :
    ((offered 8 0x101A00003#34).offers 0x101A00003#34 ∧ CmdWord.op 0x101A00003#34 = 0b01#2 ∧ CmdWord.rsvd 0x101A00003#34 ≠ 0#8) ∧
    ((offered 8 0x100A00000#34).offers 0x100A00000#34 ∧ CmdWord.op 0x100A00000#34 = 0b01#2 ∧ CmdWord.rsvd 0x100A00000#34 = 0#8 ∧
      dispatch (CmdWord.low 0x100A00000#34) = none) ∧
    ((offered 8 0x100A00001#34).offers 0x100A00001#34 ∧ CmdWord.op 0x100A00001#34 = 0b01#2 ∧ CmdWord.rsvd 0x100A00001#34 = 0#8 ∧
      (dispatch (CmdWord.low 0x100A00001#34)).isSome = true) := by decide
theorem witness_CreateHandleCompletes : dispatch 8 = some r8 := by decide
theorem witness_IllegalDensityInvalidatesTheHandle :
    dispatch 3 = none ∧ (Instr.write 0 1 = .write 0 1 ∨ Instr.write 0 1 = .read 0 1) := by decide
theorem witness_TransferWithoutHandleFails :
    (Instr.read 0 1 = .write 0 1 ∨ Instr.read 0 1 = .read 0 1) ∧ State.reset.handle.hvalid = false := by decide
theorem witness_TransferPastReachFails :
    (offered 8 0).handle.hvalid = true ∧ (offered 8 0).record = some r8 ∧
    (0x03F1#16).toNat + (16#16).toNat > min ((offered 8 0).handle.density.toNat * 128) 65536 ∧
    (0x03F0#16).toNat + (16#16).toNat ≤ min ((offered 8 0).handle.density.toNat * 128) 65536 := by decide
theorem witness_ZeroLengthTransferIsANoOp :
    (offered 8 0).record = some r8 ∧ (offered 8 0).handle.hvalid = true ∧ (0x0400#16).toNat ≤ reachOf r8 ∧
    (0x0401#16).toNat > reachOf r8 ∧
    ∃ s : State, s.record = some r8 ∧ s.handle.hvalid = false :=
  ⟨by decide, by decide, by decide, by decide, (offered 8 0).invalidateHandle, by decide, by decide⟩
theorem witness_WriteStartsItsFirstChunk :
    (offered 8 0).handle.hvalid = true ∧ (offered 8 0).record = some r8 ∧ (16#16) ≠ 0 ∧
    (0x03F0#16).toNat + (16#16).toNat ≤ reachOf r8 := by decide
theorem witness_ReadStartsItsDummyWrite :
    (offered 32 0).handle.hvalid = true ∧ (offered 32 0).record = some r32 ∧ (1#16) ≠ 0 ∧
    (0x0FFF#16).toNat + (1#16).toNat ≤ reachOf r32 := by decide

/-- A state of `WRITE 0x000E, 4` in a phase, answered *done*. -/
def inWrite (d : BitVec 16) (ph : Phase) (k : BitVec 9) : State :=
  { mk (handleA0 d) ph (dpW k) [] with env := { State.reset.env with inputs := [Sample.done 0], wbuf := [(0, 4), (1, 5)] } }
/-- A state of `READ 0x0010, 2` in a phase, answered *done*. -/
def inRead (d : BitVec 16) (ph : Phase) (idx rem : Offset) : State := mk (handleA0 d) ph (dpR idx rem) [Sample.done 7]

/-- A state with a device attached and no input to come. -/
def attached (ph : Phase) (dp : Datapath) (d : Device) : State :=
  { mk (handleA0 8) ph dp [] with env := { State.reset.env with device := some d } }

/-- The environment an oracle's *done* leaves. -/
def oracleEnv (o : TOp) (s : State) : Env := s.sample.env.afterDone o none

theorem witness_WriteStepsTable :
    (∀ c ∈ [(Phase.wBegin, TOp.beginSession 0xA0), (.wAhi, .writeByte 0x00), (.wAlo, .writeByte 0x0E), (.wData, .writeByte 5),
        (.wEnd, .endSession)],
      let s := inWrite 32 c.1 1
      s.answeredDone c.2 0 (oracleEnv c.2 s) ∧ s.contractHolds ∧ s.record = some r32 ∧ s.phase.isWrite = true) ∧
    (inWrite 8 .wEnd 2).dp.rem - (inWrite 8 .wEnd 2).dp.chunk.setWidth 16 ≠ 0 ∧
    (let s := mk (handleA0 8) .wEnd { dpW 2 with rem := 2 } [Sample.done 0]
     s.answeredDone .endSession 0 (oracleEnv .endSession s) ∧ s.contractHolds ∧ s.record = some r8 ∧ s.phase = .wEnd ∧
     s.dp.rem - s.dp.chunk.setWidth 16 = 0) := by decide
/-- The same hypotheses, the answer an attached device's. -/
theorem witness_WriteStepsTable_device :
    let s := attached .wBegin (dpW 0) (dev8 0 .idle)
    s.answeredDone (.beginSession 0xA0) 0
      { s.sample.env with sessionOpen := true, device := some (dev8 0 (.address 0 none)) } ∧
    s.contractHolds ∧ s.record = some r8 ∧ s.phase.isWrite = true := by decide
theorem witness_ReadStepsTable :
    ∀ c ∈ [(Phase.rBeginW, TOp.beginSession 0xA0), (.rAhi, .writeByte 0x00), (.rAlo, .writeByte 0x10), (.rEndW, .endSession),
        (.rBeginR, .beginSession 0xA1), (.rData, .readByteNak), (.rEnd, .endSession)],
      let s := inRead 32 c.1 1 1
      s.answeredDone c.2 7 (oracleEnv c.2 s) ∧ s.contractHolds ∧ s.record = some r32 ∧ s.phase ≠ .idle ∧
      s.phase.isWrite = false := by decide
/-- The same hypotheses, the answer an attached device's. -/
theorem witness_ReadStepsTable_device :
    let d := { dev8 0x10 .reading with mem := [(0x10, 9)] }
    let s := attached .rData (dpR 0 2) d
    s.answeredDone .readByteAck 9 { s.sample.env with device := some { d with ac := 0x11, draws := 1 } } ∧
    s.contractHolds ∧ s.record = some r8 ∧ s.phase ≠ .idle ∧ s.phase.isWrite = false := by decide

/-- A state of a `READ` whose `RN` fails. -/
def failingRead : State := mk (handleA0 8) .rData (dpR 1 1) [Sample.failing true]

theorem witness_FailedOperationEndsTheCommand :
    failingRead.answeredFail ∧ failingRead.contractHolds ∧ failingRead.phase ≠ .idle ∧
    failingRead.pendingOp = some .readByteNak := by decide
theorem witness_UnansweredOperationWaits :
    State.unanswered (mk (handleA0 8) .wBegin (dpW 0) []) ∧ State.contractHolds (mk (handleA0 8) .wBegin (dpW 0) []) ∧
    (mk (handleA0 8) .wBegin (dpW 0) []).pendingOp = some (.beginSession 0xA0) :=
  ⟨⟨by decide, .inl (by decide)⟩, by decide, by decide⟩
theorem witness_NeverAnsweredIsBusyForEver :
    let s := mk (handleA0 8) .wBegin (dpW 0) [Sample.offering 0]
    (∀ p ∈ s.env.inputs, p.rst = false ∧ p.answer = none) ∧ s.env.device = none ∧ s.phase ≠ .idle ∧ s.busy = true ∧
    s.contractHolds := by decide

/-- An idle state with a device attached, and a host that offers a word while the command runs. -/
def attachedBusy (d : Device) : State :=
  { mk (handleA0 8) .idle dp0 [] with env := { State.reset.env with inputs := [Sample.offering 0], device := some d } }

theorem witness_AbsentDeviceIsWaitedForEver :
    let d := { dev8 0 .idle with strap := 0xB0 }
    let p := { Sample.offering 0 with answer := some (.done 3), wbuf := [(0, 1)], restore := true }
    let s := { attached .wBegin (dpW 0) d with env := { State.reset.env with inputs := [p], device := some d } }
    (∀ q ∈ s.env.inputs, q.rst = false ∧ q.answer ≠ some .fail) ∧ s.env.device = some d ∧ dispatch d.density = some r8 ∧
    s.phase = .wBegin ∧ s.outstanding = none ∧ s.env.sessionOpen = false ∧
    s.dp.busb &&& 0xFE#8 &&& ~~~((r8.foldMask >>> 7).setWidth 8) ≠ d.strap := by decide
theorem witness_BeginInsideOpenSessionIsRefused :
    let s := { mk (handleA0 8) .wBegin (dpW 0) [] with env := { State.reset.env with sessionOpen := true } }
    s.pins.rst = false ∧ s.outstanding = none ∧ s.env.sessionOpen = true ∧ s.phase = .wBegin := by decide

theorem witness_HandleIsWrittenByCreateAndResetOnly :
    (let s := mk (handleA0 8) .wData (dpW 1) [{ Sample.quiet with rst := true }]
     s.pins.rst = true ∧ nextIs (fun _ => true) (step s) = true) ∧
    ((offered 8 0x100A00010#34).offers 0x100A00010#34 ∧ decode 0x100A00010#34 = .ok (.createHandle 0xA0 16) ∧
      (dispatch 16).isSome = true ∧
      nextIs (fun t => decide (t.handle ≠ (offered 8 0x100A00010#34).handle)) (step (offered 8 0x100A00010#34)) = true) ∧
    (let s := mk (handleA0 8) .wAlo (dpW 0) []
     s.pins.rst = false ∧ s.phase ≠ .idle ∧ nextIs (fun t => decide (t.handle = s.handle)) (step s) = true) := by decide
theorem witness_BusyExactlyOutsideIdle :
    let s := mk (handleA0 8) .wAlo (dpW 0) []
    (s.busy = true ↔ s.phase ≠ .idle) ∧ s.busy = true ∧ nextIs (fun _ => true) (step s) = true := by decide
theorem witness_StatusIsWrittenAtCompletionOnly :
    (offered 8 0).pins.rst = false ∧ nextIs (fun t => t.rsp.isSome) (step (offered 8 0)) = true ∧
    nextIs (fun t => t.rsp.isNone) (step (offered 8 0x200000014#34)) = true := by decide
theorem witness_CommandPortIsIgnoredWhileBusy :
    (inWrite 8 .wAlo 0).phase ≠ .idle ∧ (inWrite 8 .wAlo 0).env.inputs = [Sample.done 0] ∧ (Sample.done 0).rst = false := by decide
theorem witness_EngineStoresOnlyReceivedBytes :
    let s := inRead 8 .rData 1 1
    nextIs (fun t => decide (t.rbufAt 1 = 7)) (step s) = true ∧ s.pins.rst = false ∧ s.phase = .rData ∧
    s.pendingOp = some .readByteNak := by decide
theorem witness_ResetInAnyPhase :
    (mk (handleA0 8) .wData (dpW 1) [{ Sample.quiet with rst := true }]).pins.rst = true ∧
    (let s := attached .rData (dpR 1 1) (dev8 3 .reading)
     s.env.device = some (dev8 3 .reading) ∧ ∀ stored, (dev8 3 .reading).session ≠ .data stored) := by decide

/-! The invariant in concrete states. -/

theorem reset_inv : Inv State.reset where
  legal := by decide
  busy := by decide
  wbufWf := by decide
  rbufWf := by decide
  memWf := fun _ h => nomatch h
  idleQuiet := by decide
  running := fun h => absurd rfl h
  issued := fun _ h => nomatch h
  session := by decide
  noSession := by decide
  betweenSessions := by decide
  counter := fun _ h => nomatch h
  deviceSession := by decide

/-- `WRITE 0x000E, 4` on density 8, its first data byte sent. -/
def midWrite : State :=
  { inWrite 8 .wData 1 with
    latch := { op := 0b10, cOff := 0x000E, cLen := 4 }
    env := { State.reset.env with inputs := [Sample.done 0], sessionOpen := true } }

theorem midWrite_inv : Inv midWrite where
  legal := by decide
  busy := by decide
  wbufWf := by decide
  rbufWf := by decide
  memWf := fun _ h => nomatch h
  idleQuiet := by decide
  running := fun _ => ⟨rfl, r8, by decide,
    { inReach := by decide, parts := by decide, bus := by decide, opcode := by decide, curOff := by decide,
      left := by decide, pos := by decide, chunk := by decide, high := by decide, k := (by decide : (1 : BitVec 9) < 2) }⟩
  issued := fun _ h => nomatch h
  session := by decide
  noSession := by decide
  betweenSessions := by decide
  counter := fun _ h => nomatch h
  deviceSession := fun _ _ h => nomatch h

/-- `READ 0x0010, 2` on density 8 in a phase. -/
def midRead (ph : Phase) (isOpen : Bool) (idx rem : Offset) : State :=
  { inRead 8 ph idx rem with
    latch := { op := 0b11, cOff := 0x0010, cLen := 2 }
    env := { State.reset.env with inputs := [Sample.done 7], sessionOpen := isOpen } }

theorem midRead_inv : Inv (midRead .rData true 1 1) where
  legal := by decide
  busy := by decide
  wbufWf := by decide
  rbufWf := by decide
  memWf := fun _ h => nomatch h
  idleQuiet := by decide
  running := fun _ => ⟨rfl, r8, by decide,
    { inReach := by decide, parts := by decide, bus := by decide, opcode := by decide, curOff := by decide,
      high := by decide, left := (by decide : (1 : Offset) ≠ 0) }⟩
  issued := fun _ h => nomatch h
  session := by decide
  noSession := by decide
  betweenSessions := by decide
  counter := fun _ h => nomatch h
  deviceSession := fun _ _ h => nomatch h

theorem startRead_inv : Inv (midRead .rBeginW false 0 2) where
  legal := by decide
  busy := by decide
  wbufWf := by decide
  rbufWf := by decide
  memWf := fun _ h => nomatch h
  idleQuiet := by decide
  running := fun _ => ⟨rfl, r8, by decide,
    { inReach := by decide, parts := by decide, bus := by decide, opcode := by decide, curOff := by decide,
      high := by decide, left := (by decide : (2 : Offset) ≠ 0 ∧ (0 : Offset) = 0) }⟩
  issued := fun _ h => nomatch h
  session := by decide
  noSession := by decide
  betweenSessions := by decide
  counter := fun _ h => nomatch h
  deviceSession := fun _ _ h => nomatch h

theorem witness_OneResponsePerCommand :
    Inv midWrite ∧ midWrite.pins.rst = false ∧ nextIs (fun t => t.busy) (step midWrite) = true :=
  ⟨midWrite_inv, by decide, by decide⟩
theorem witness_EveryStepKeepsTheInvariant :
    Inv midWrite ∧ nextIs (fun t => decide (t.phase = .wEnd)) (step midWrite) = true := ⟨midWrite_inv, by decide⟩
theorem witness_InvariantStepIsSafe : Inv midWrite := midWrite_inv
theorem witness_RunningTransferStaysInRange :
    (Inv midWrite ∧ midWrite.record = some r8 ∧ midWrite.phase = .wData) ∧
    (Inv (midRead .rBeginW false 0 2) ∧ (midRead .rBeginW false 0 2).record = some r8) ∧
    (Inv (midRead .rData true 1 1) ∧ (midRead .rData true 1 1).record = some r8) :=
  ⟨⟨midWrite_inv, by decide, by decide⟩, ⟨startRead_inv, by decide⟩, midRead_inv, by decide⟩

theorem witness_NoChunkCrossesAPage : (0 : Nat) < 16 ∧ (0x0010, 2) ∈ chunks 16 0x000E 4 := by decide
theorem witness_ChunkStartsAndSizes :
    (0 : Nat) < 16 ∧ 0 < 40 ∧ (chunks 16 0x000E 40)[1]? = some (0x0010, 16) ∧ 1 + 1 < (chunks 16 0x000E 40).length ∧
    (chunks 16 0x000E 40).getLast? = some (0x0030, 6) ∧ 0x0003 % 16 + 5 ≤ 16 := by decide
theorem witness_WriteTraceSize : dispatch 8 = some r8 := by decide
theorem witness_ReadAcknowledgesAllButTheLast : [(7 : Byte)] ≠ [] := by decide
theorem witness_CommandTracesAreWellFramed : dispatch 32 = some r32 := by decide

/-- An idle engine of density 8 with oracle answers to come. -/
def answering (inputs : List Sample) : State := mk (handleA0 8) .idle dp0 inputs

/-- Answers *done*, each after a silent step in which the host offers a word that is not taken. -/
def slowAnswers (n : Nat) : List Sample := (List.replicate n [Sample.offering 0, Sample.done 9]).flatten

theorem witness_WriteRunIsItsPseudocode :
    let s := answering (slowAnswers 10 ++ [])
    s.handle.hvalid = true ∧ s.record = some r8 ∧ (4#16) ≠ 0 ∧ (0x000E#16).toNat + (4#16).toNat ≤ reachOf r8 ∧
    s.env.device = none ∧ s.env.sessionOpen = false ∧ s.outstanding = none ∧
    s.env.inputs = slowAnswers 10 ++ [] ∧ (∀ p ∈ slowAnswers 10, p.harmless) ∧
    (answersOf (slowAnswers 10)).length = (opsOf (writeEvents r8 s 0x000E 4)).length :=
  ⟨by decide, by decide, by decide, by decide, by decide, by decide, by decide, by decide, by decide, rfl⟩
theorem witness_FailedWriteRunIsItsPseudocode :
    let s := answering (slowAnswers 5 ++ Sample.failing false :: [])
    s.handle.hvalid = true ∧ s.record = some r8 ∧ (4#16) ≠ 0 ∧ (0x000E#16).toNat + (4#16).toNat ≤ reachOf r8 ∧
    s.env.device = none ∧ s.env.sessionOpen = false ∧ s.outstanding = none ∧
    s.env.inputs = slowAnswers 5 ++ Sample.failing false :: [] ∧ (∀ q ∈ slowAnswers 5, q.harmless) ∧
    (Sample.failing false).rst = false ∧ (Sample.failing false).answer = some .fail ∧
    (Sample.failing false).wbuf = [] ∧ (Sample.failing false).rbuf = [] ∧
    (answersOf (slowAnswers 5)).length < (opsOf (writeEvents r8 s 0x000E 4)).length :=
  ⟨by decide, by decide, by decide, by decide, by decide, by decide, by decide, by decide, by decide, by decide, by decide,
    by decide, by decide, (by decide : 5 < 10)⟩
theorem witness_ReadRunIsItsPseudocode :
    let s := answering (slowAnswers 7 ++ [])
    s.handle.hvalid = true ∧ s.record = some r8 ∧ (2#16) ≠ 0 ∧ (0x0010#16).toNat + (2#16).toNat ≤ reachOf r8 ∧
    s.env.device = none ∧ s.env.sessionOpen = false ∧ s.outstanding = none ∧
    s.env.inputs = slowAnswers 7 ++ [] ∧ (∀ p ∈ slowAnswers 7, p.harmless) ∧
    (answersOf (slowAnswers 7)).length = addrBytesOf r8 + (2#16).toNat + 4 := by decide
theorem witness_FailedReadRunIsItsPseudocode :
    let s := answering (slowAnswers 5 ++ Sample.failing true :: [])
    s.handle.hvalid = true ∧ s.record = some r8 ∧ (2#16) ≠ 0 ∧ (0x0010#16).toNat + (2#16).toNat ≤ reachOf r8 ∧
    s.env.device = none ∧ s.env.sessionOpen = false ∧ s.outstanding = none ∧
    s.env.inputs = slowAnswers 5 ++ Sample.failing true :: [] ∧ (∀ q ∈ slowAnswers 5, q.harmless) ∧
    (Sample.failing true).rst = false ∧ (Sample.failing true).answer = some .fail ∧
    (Sample.failing true).wbuf = [] ∧ (Sample.failing true).rbuf = [] ∧
    (answersOf (slowAnswers 5)).length < addrBytesOf r8 + (2#16).toNat + 4 ∧
    [9, (0 : Byte)].length = (2#16).toNat ∧ (answersOf (slowAnswers 5)).drop (addrBytesOf r8 + 3) <+: [9, 0] := by decide

theorem witness_DeviceStoresAndWrapsInThePage :
    dispatch (dev8 0x0F (.data true)).density = some r8 ∧ (dev8 0x0F (.data true)).ac < capOf r8 ∧
    (dev8 0x0F (.data true)).session = .data true := by decide
theorem witness_DeviceIsSelectedThenAddressed :
    dispatch (dev8 0 .idle).density = some r8 ∧ (dev8 0 .idle).respond (.beginSession 0xA0) ≠ .silent ∧
    (dev8 0 .idle).respond (.beginSession 0xA1) ≠ .silent ∧ (0xA1#8).getLsbD 0 = true ∧
    (r8.addrBytes = 1 ∧ (dev8 0 (.address 3 none)).session = .address 3 none) ∧
    (dispatch 32 = some r32 ∧ r32.addrBytes = 2) := by decide
theorem witness_WriteCycleFollowsDataAndEnds :
    dispatch (dev8 0 (.data true)).density = some r8 ∧ (dev8 0 (.data true)).session = .data true ∧
    (dev8 0 (.data false)).session = .data false := by decide
theorem witness_DeviceReadMovesOnByOne :
    (dispatch (dev8 0x3FF .reading).density = some r8 ∧ (dev8 0x3FF .reading).session = .reading ∧
      (dev8 0x3FF .reading).ac < capOf r8) ∧
    (dev8 0x3FE .reading).ac + 1 < capOf r8 := by decide
theorem witness_CutShortChunkTouchesNothingElse :
    (let d := { dev8 2 (.data true) with mem := [(0, 5), (1, 6)], undo := [(1, some 9), (0, none)] }
     dispatch d.density = some r8 ∧ d.ac < capOf r8 ∧ Memory.wf d.mem ∧ (0, none) ∈ d.undo) ∧
    (∀ stored, (dev8 2 .reading).session ≠ .data stored) ∧
    ((dev8 2 (.data false)).session = .data false ∧ ∀ v, some TOp.endSession ≠ some (.writeByte v)) :=
  ⟨by decide, by decide, rfl, by simp⟩
theorem witness_WriteReachesTheDevice :
    let s := attachedBusy (dev8 0 .idle)
    s.handle.hvalid = true ∧ s.record = some r8 ∧ (4#16) ≠ 0 ∧ (0x000E#16).toNat + (4#16).toNat ≤ reachOf r8 ∧
    (∀ p ∈ s.env.inputs, p.harmless) ∧ s.env.sessionOpen = false ∧ s.outstanding = none ∧ s.env.device = some (dev8 0 .idle) ∧
    (dev8 0 .idle).density = s.handle.density ∧ (dev8 0 .idle).strap = s.base ∧ (dev8 0 .idle).session = .idle ∧
    Memory.wf (dev8 0 .idle).mem ∧ s.base &&& (r8.foldMask >>> 7).setWidth 8 = 0#8 := by decide
/-- The hypotheses of ReadComesFromTheDevice are among those of WriteReachesTheDevice. -/
theorem witness_ReadComesFromTheDevice :
    let s := attachedBusy (dev8 0 .idle)
    s.record = some r8 ∧ (1#16) ≠ 0 ∧ (0x03FF#16).toNat + (1#16).toNat ≤ reachOf r8 ∧ s.env.device = some (dev8 0 .idle) ∧
    s.handle.hvalid = true ∧ (∀ p ∈ s.env.inputs, p.harmless) ∧ s.env.sessionOpen = false ∧ s.outstanding = none ∧
    (dev8 0 .idle).density = s.handle.density ∧ (dev8 0 .idle).strap = s.base ∧ (dev8 0 .idle).session = .idle ∧
    s.base &&& (r8.foldMask >>> 7).setWidth 8 = 0#8 := by decide
theorem witness_WriteThenReadRoundTrips :
    let s := attachedBusy (dev8 0 .idle)
    s.handle.hvalid = true ∧ s.record = some r8 ∧ (0x0400#16).toNat + (0#16).toNat ≤ reachOf r8 ∧ s.phase = .idle ∧
    (∀ p ∈ s.env.inputs, p.harmless) ∧ s.env.sessionOpen = false ∧ s.outstanding = none ∧ s.env.device = some (dev8 0 .idle) ∧
    (dev8 0 .idle).density = s.handle.density ∧ (dev8 0 .idle).strap = s.base ∧ (dev8 0 .idle).session = .idle ∧
    Memory.wf (dev8 0 .idle).mem ∧ s.base &&& (r8.foldMask >>> 7).setWidth 8 = 0#8 := by decide

end Sys2Proof.Tests
end

section
/-! SUPPORT. What the record, the accepted command, an issued operation and an answered one are, said once. -/

namespace Sys2Proof.Machine

/-! ## The record's columns -/

theorem pageOf_bounds {d : BitVec 16} {r : Rec} (h : dispatch d = some r) : 8 ≤ pageOf r ∧ pageOf r ≤ 256 :=
  dispatch_forall (P := fun r => 8 ≤ pageOf r ∧ pageOf r ≤ 256) (by decide) h

theorem reachOf_le {d : BitVec 16} {r : Rec} (h : dispatch d = some r) : reachOf r ≤ 65536 :=
  dispatch_forall (P := fun r => reachOf r ≤ 65536) (by decide) h

theorem addrBytes_eq {d : BitVec 16} {r : Rec} (h : dispatch d = some r) : r.addrBytes = 1 ∨ r.addrBytes = 2 :=
  dispatch_forall (P := fun r => r.addrBytes = 1 ∨ r.addrBytes = 2) (by decide) h

theorem pageOf_of_1024 {r : Rec} (h : dispatch 1024 = some r) : pageOf r = 256 :=
  dispatch_forall (P := fun r => r.density = 1024 → pageOf r = 256) (by decide) h (dispatch_density h)

/-- The bus byte of a write session is even (30_encoding.md R80). -/
theorem busAddr_even (r : Rec) (s : State) (off : Offset) : (busAddr r s.base off).getLsbD 0 = false := by
  have hbase : s.base.getLsbD 0 = false := by
    unfold State.base
    rw [BitVec.getLsbD_append]; rfl
  simpa [busAddr, fold] using hbase

theorem busAddr_read_odd (b : Byte) : (b ||| 0x01#8).getLsbD 0 = true := by simp

/-- The range check takes its sum without wrap (60_exceptions.md R184). -/
theorem inRange_iff (r : Rec) (off len : Offset) : inRange r off len = true ↔ off.toNat + len.toNat ≤ reachOf r := by
  have h1 := off.isLt
  have h2 := len.isLt
  simp only [inRange, reachOf, decide_eq_true_eq, BitVec.le_def, BitVec.toNat_add, BitVec.toNat_setWidth]
  omega

/-- `POS` is `CUR_OFF mod PAGE_SIZE`: 8 bits hold it, since a page has at most 256 bytes. -/
theorem pagePos_toNat {d : BitVec 16} {r : Rec} (h : dispatch d = some r) (off : Offset) :
    (pagePos r off).toNat = off.toNat % pageOf r := by
  obtain ⟨h8, h256⟩ := pageOf_bounds h
  have hlt : off.toNat % pageOf r < pageOf r := Nat.mod_lt _ (by omega)
  simp only [pagePos, pageOf, BitVec.toNat_setWidth, BitVec.toNat_umod] at *
  rw [Nat.mod_eq_of_lt (a := r.pageSize.toNat) (by omega), Nat.mod_eq_of_lt (by omega)]

/-- `CHUNK` is `min(PAGE_SIZE - POS, REM)`: 9 bits hold it. -/
theorem chunkSize_toNat {d : BitVec 16} {r : Rec} (h : dispatch d = some r) {pos : BitVec 8} (rem : Offset)
    (hpos : pos.toNat < pageOf r) : (chunkSize r pos rem).toNat = min (pageOf r - pos.toNat) rem.toNat := by
  obtain ⟨h8, h256⟩ := pageOf_bounds h
  have hroom : (r.pageSize - pos.setWidth 9).toNat = pageOf r - pos.toNat := by
    have hp := pos.isLt
    unfold pageOf at *
    rw [BitVec.toNat_sub_of_le (by rw [BitVec.le_def, BitVec.toNat_setWidth]; omega), BitVec.toNat_setWidth]
    omega
  have hle : (r.pageSize - pos.setWidth 9).setWidth 16 ≤ rem ↔ pageOf r - pos.toNat ≤ rem.toNat := by
    rw [BitVec.le_def, BitVec.toNat_setWidth, hroom, Nat.mod_eq_of_lt (by omega)]
  unfold chunkSize
  dsimp only
  split
  · rename_i hc
    rw [hroom, Nat.min_eq_left (hle.1 hc)]
  · rename_i hc
    have hlt := mt hle.2 hc
    rw [BitVec.toNat_setWidth, Nat.mod_eq_of_lt (by omega), Nat.min_eq_right (by omega)]

/-! ## What a word decodes to -/

/-- The three rows of commands (30_encoding.md R74). -/
theorem decode_ok_cases {w : CmdWord} {i : Instr} (h : decode w = .ok i) :
    (CmdWord.op w = 0b01#2 ∧ CmdWord.rsvd w = 0#8 ∧ i = .createHandle (CmdWord.base w) (CmdWord.low w)) ∨
    (CmdWord.op w = 0b10#2 ∧ i = .write (CmdWord.offset w) (CmdWord.low w)) ∨
    (CmdWord.op w = 0b11#2 ∧ i = .read (CmdWord.offset w) (CmdWord.low w)) := by
  have hop : ∀ b : BitVec 2, b = 0b00 ∨ b = 0b01 ∨ b = 0b10 ∨ b = 0b11 := by decide
  unfold decode at h
  rcases hop (CmdWord.op w) with hw | hw | hw | hw <;> simp only [hw] at h
  · cases h
  · by_cases hr : CmdWord.rsvd w = 0#8
    · exact .inl ⟨hw, hr, by simpa [hr, eq_comm] using h⟩
    · simp [hr] at h
  · exact .inr (.inl ⟨hw, by simpa [eq_comm] using h⟩)
  · exact .inr (.inr ⟨hw, by simpa [eq_comm] using h⟩)

theorem decode_write {w : CmdWord} {off len : Offset} (h : decode w = .ok (.write off len)) :
    CmdWord.op w = 0b10#2 ∧ off = CmdWord.offset w ∧ len = CmdWord.low w := by
  rcases decode_ok_cases h with ⟨-, -, hi⟩ | ⟨hop, hi⟩ | ⟨-, hi⟩ <;> cases hi
  exact ⟨hop, rfl, rfl⟩

theorem decode_read {w : CmdWord} {off len : Offset} (h : decode w = .ok (.read off len)) :
    CmdWord.op w = 0b11#2 ∧ off = CmdWord.offset w ∧ len = CmdWord.low w := by
  rcases decode_ok_cases h with ⟨-, -, hi⟩ | ⟨-, hi⟩ | ⟨hop, hi⟩ <;> cases hi
  exact ⟨hop, rfl, rfl⟩

/-! ## Issuing an operation -/

/-- The state once the operation `o` is on the port: issued now, unless it is there already (10_state.md R21, R22). -/
def State.issue (o : TOp) (s : State) : State := if s.outstanding = none then s.fetchData.drive o else s

/-- The events of issuing `o`: in `W_DATA` its byte is read from `WBUF` first. -/
def State.issueEvents (o : TOp) (s : State) : List Event :=
  (if s.phase = .wData then
    [.wbufRead (s.dp.idx + s.dp.k.setWidth 16) (s.wbufAt (s.dp.idx + s.dp.k.setWidth 16).toNat)] else []) ++ [.op o]

theorem issueEvents_of_ne_wData {s : State} (h : s.phase ≠ .wData) (o : TOp) : s.issueEvents o = [.op o] := by
  simp [State.issueEvents, h]

theorem issueEvents_of_wData {s : State} (h : s.phase = .wData) (o : TOp) : s.issueEvents o =
    [.wbufRead (s.dp.idx + s.dp.k.setWidth 16) (s.wbufAt (s.dp.idx + s.dp.k.setWidth 16).toNat), .op o] := by
  simp [State.issueEvents, h]

section Issue
variable (o : TOp) (s : State)

theorem issue_of_none {s : State} (h : s.outstanding = none) : s.issue o = s.fetchData.drive o := if_pos h
theorem issue_of_some {s : State} (h : s.outstanding ≠ none) : s.issue o = s := if_neg h

@[simp] theorem issue_handle : (s.issue o).handle = s.handle := by
  unfold State.issue; split <;> simp [fetchData_frame]
@[simp] theorem issue_latch : (s.issue o).latch = s.latch := by
  unfold State.issue; split <;> simp [fetchData_frame]
@[simp] theorem issue_dp : (s.issue o).dp = s.dp := by
  unfold State.issue; split <;> simp [fetchData_frame]
@[simp] theorem issue_phase : (s.issue o).phase = s.phase := by
  unfold State.issue; split <;> simp [fetchData_frame]
@[simp] theorem issue_busy : (s.issue o).busy = s.busy := by
  unfold State.issue; split <;> simp [fetchData_frame]
@[simp] theorem issue_status : (s.issue o).status = s.status := by
  unfold State.issue; split <;> simp [fetchData_frame]
@[simp] theorem issue_rsp : (s.issue o).rsp = s.rsp := by
  unfold State.issue; split <;> simp [fetchData_frame]
@[simp] theorem issue_env : (s.issue o).env = s.env := by
  unfold State.issue; split <;> simp [fetchData_frame]
@[simp] theorem issue_log : (s.issue o).log = s.log ++ s.issuing (s.issueEvents o) := by
  unfold State.issue State.issuing State.issueEvents State.fetchData
  split <;> [split; skip] <;> simp
theorem issue_buf : (s.issue o).buf =
    if s.phase = .wData ∧ s.outstanding = none then { s.buf with idx := s.dp.idx + s.dp.k.setWidth 16, re := true }
    else s.buf := by
  unfold State.issue State.fetchData
  split <;> [split; skip] <;> simp [*]

end Issue

/-- A step of a running command that issues `o`, or waits for its answer, under the transport's contract. -/
structure State.Drives (s : State) (o : TOp) : Prop where
  noReset : s.pins.rst = false
  running : s.phase ≠ .idle
  pending : s.pendingOp = some o
  contract : s.contractHolds

theorem pendingOp_of_none {s : State} (h : s.outstanding = none) : s.pendingOp = s.sample.nextOp := by
  simp [State.pendingOp, h]

theorem pendingOp_of_some {s : State} {o : TOp} (h : s.outstanding = some o) : s.pendingOp = some o := by
  simp [State.pendingOp, h]

theorem issue_outstanding {s : State} {o : TOp} (h : s.pendingOp = some o) : (s.sample.issue o).outstanding = some o := by
  cases ho : s.outstanding with
  | none => simp [issue_of_none, ho]
  | some o' => simpa [issue_of_some, ho, State.pendingOp] using h

/-- The phases whose operation is a `T.begin`. -/
theorem isBegin_of_nextOp {s : State} {o : TOp} (h : s.nextOp = some o) :
    o.isBegin = true ↔ s.phase = .wBegin ∨ s.phase = .rBeginW ∨ s.phase = .rBeginR := by
  unfold State.nextOp at h
  cases hp : s.phase <;> rw [hp] at h <;> cases h
  case rData => split <;> decide
  all_goals simp [TOp.isBegin]

/-- Under the contract the sequencer settles the operation on the port. -/
theorem step_of_drives {s : State} {o : TOp} (h : s.Drives o) : step s = settle s.pins o (s.sample.issue o) := by
  obtain ⟨hrst, hrun, hpend, hcon⟩ := h
  have hstep : step s = sequencerStep s.pins s.sample := by simp [step, engineStep, hrst, hrun]
  rw [hstep, sequencerStep]
  cases ho : s.outstanding with
  | some o' =>
    obtain rfl : o' = o := by simpa [State.pendingOp, ho] using hpend
    simp [ho, issue_of_some]
  | none =>
    have hnext : s.sample.nextOp = some o := by rwa [pendingOp_of_none ho] at hpend
    have hopen : (o.isBegin && s.sample.env.sessionOpen) = false := by
      rw [sample_sessionOpen_of_ne_idle hrun, Bool.and_eq_false_iff, or_iff_not_imp_left, Bool.not_eq_false]
      exact fun hb => hcon ho ((isBegin_of_nextOp hnext).1 hb)
    simp only [sample_outstanding, ho, hnext, hopen, Bool.false_eq_true, if_false]
    rw [issue_of_none o (by simp [ho])]

/-! ## An operation done -/

/-- The end of a chunk (10_state.md R21, row `W_END`): the next chunk, or completion. -/
def endChunk (r : Rec) (s : State) : State :=
  if (advanceChunk s).dp.rem = 0 then complete .ok (advanceChunk s)
  else { chunkSetup r (advanceChunk s) with phase := .wBegin }

/-- The state an answer *done* leads to under the record `r` (R21, R22): `onDone` without its fault (log 14). -/
def doneState (r : Rec) (v : Byte) (s : State) : State :=
  match s.phase with
  | .idle => s
  | .wBegin => { s with phase := if r.addrBytes = 2 then .wAhi else .wAlo }
  | .wAhi => { s with phase := .wAlo }
  | .wAlo => { s with phase := .wData }
  | .wData =>
    { s with dp := { s.dp with k := s.dp.k + 1 }, phase := if s.dp.k + 1 = s.dp.chunk then .wEnd else .wData }
  | .wEnd => endChunk r s
  | .rBeginW => { s with phase := if r.addrBytes = 2 then .rAhi else .rAlo }
  | .rAhi => { s with phase := .rAlo }
  | .rAlo => { s with phase := .rEndW }
  | .rEndW => { s with phase := .rBeginR }
  | .rBeginR => { s with phase := .rData }
  | .rData => { advanceRead (s.rbufWrite s.dp.idx v) with phase := if s.dp.rem - 1 = 0 then .rEnd else .rData }
  | .rEnd => complete .ok s

theorem doneState_wBegin {s : State} (h : s.phase = .wBegin) (r : Rec) (v : Byte) :
    doneState r v s = { s with phase := if r.addrBytes = 2 then .wAhi else .wAlo } := by simp [doneState, h]
theorem doneState_wAhi {s : State} (h : s.phase = .wAhi) (r : Rec) (v : Byte) :
    doneState r v s = { s with phase := .wAlo } := by simp [doneState, h]
theorem doneState_wAlo {s : State} (h : s.phase = .wAlo) (r : Rec) (v : Byte) :
    doneState r v s = { s with phase := .wData } := by simp [doneState, h]
theorem doneState_wData {s : State} (h : s.phase = .wData) (r : Rec) (v : Byte) :
    doneState r v s = { s with
      dp := { s.dp with k := s.dp.k + 1 }, phase := if s.dp.k + 1 = s.dp.chunk then .wEnd else .wData } := by
  simp [doneState, h]
theorem doneState_wEnd {s : State} (h : s.phase = .wEnd) (r : Rec) (v : Byte) : doneState r v s = endChunk r s := by
  simp [doneState, h]
theorem doneState_rBeginW {s : State} (h : s.phase = .rBeginW) (r : Rec) (v : Byte) :
    doneState r v s = { s with phase := if r.addrBytes = 2 then .rAhi else .rAlo } := by simp [doneState, h]
theorem doneState_rAhi {s : State} (h : s.phase = .rAhi) (r : Rec) (v : Byte) :
    doneState r v s = { s with phase := .rAlo } := by simp [doneState, h]
theorem doneState_rAlo {s : State} (h : s.phase = .rAlo) (r : Rec) (v : Byte) :
    doneState r v s = { s with phase := .rEndW } := by simp [doneState, h]
theorem doneState_rEndW {s : State} (h : s.phase = .rEndW) (r : Rec) (v : Byte) :
    doneState r v s = { s with phase := .rBeginR } := by simp [doneState, h]
theorem doneState_rBeginR {s : State} (h : s.phase = .rBeginR) (r : Rec) (v : Byte) :
    doneState r v s = { s with phase := .rData } := by simp [doneState, h]
theorem doneState_rData {s : State} (h : s.phase = .rData) (r : Rec) (v : Byte) :
    doneState r v s = { advanceRead (s.rbufWrite s.dp.idx v) with
      phase := if s.dp.rem - 1 = 0 then .rEnd else .rData } := by simp [doneState, h]
theorem doneState_rEnd {s : State} (h : s.phase = .rEnd) (r : Rec) (v : Byte) :
    doneState r v s = complete .ok s := by simp [doneState, h]

theorem endChunk_of_left {s : State} (h : s.dp.rem - s.dp.chunk.setWidth 16 ≠ 0) (r : Rec) :
    endChunk r s = { chunkSetup r (advanceChunk s) with phase := .wBegin } := if_neg h
theorem endChunk_of_last {s : State} (h : s.dp.rem - s.dp.chunk.setWidth 16 = 0) (r : Rec) :
    endChunk r s = complete .ok (advanceChunk s) := if_pos h

/-- Under a record an answer *done* never faults. -/
theorem onDone_eq {s : State} {r : Rec} (h : s.record = some r) (v : Byte) : onDone v s = .next (doneState r v s) := by
  cases hp : s.phase <;> simp only [onDone, doneState, hp, wBeginDone, rBeginWDone, h]
  case wEnd =>
    unfold wEndDone endChunk
    split <;> simp only [h]
  all_goals rfl

/-- Where an answer *done* leads on, it leads to `doneState`, of the state's record if it has one. -/
theorem onDone_next {s t : State} {v : Byte} (h : onDone v s = .next t) :
    ∃ r, t = doneState r v s ∧ ∀ r', s.record = some r' → r' = r := by
  cases hr : s.record with
  | some r =>
    rw [onDone_eq hr, Host.Outcome.next.injEq] at h
    exact ⟨r, h.symm, fun _ hr' => (Option.some.inj hr').symm⟩
  | none =>
    refine ⟨⟨0, .A, .M1, 0, 0, 0, 0, 0, 0⟩, ?_, fun _ hr' => nomatch hr'⟩
    cases hp : s.phase <;> simp only [onDone, doneState, hp, wBeginDone, rBeginWDone, hr] at h ⊢
    case wEnd =>
      unfold wEndDone at h
      unfold endChunk
      split at h <;> simp_all
    all_goals cases h <;> rfl

section Done
variable (r : Rec) (v : Byte) (s : State)

@[simp] theorem endChunk_handle : (endChunk r s).handle = s.handle := by unfold endChunk; split <;> rfl
@[simp] theorem endChunk_latch : (endChunk r s).latch = s.latch := by unfold endChunk; split <;> rfl
@[simp] theorem endChunk_outstanding : (endChunk r s).outstanding = s.outstanding := by unfold endChunk; split <;> rfl
@[simp] theorem endChunk_buf : (endChunk r s).buf = s.buf := by unfold endChunk; split <;> rfl
@[simp] theorem endChunk_env : (endChunk r s).env = s.env := by unfold endChunk; split <;> rfl

@[simp] theorem doneState_handle : (doneState r v s).handle = s.handle := by unfold doneState; split <;> simp
@[simp] theorem doneState_latch : (doneState r v s).latch = s.latch := by unfold doneState; split <;> simp
@[simp] theorem doneState_outstanding : (doneState r v s).outstanding = s.outstanding := by
  unfold doneState; split <;> simp
theorem doneState_buf : (doneState r v s).buf =
    if s.phase = .rData then { s.buf with idx := s.dp.idx, we := true, wdata := v } else s.buf := by
  unfold doneState; split <;> simp [*]
theorem doneState_env : (doneState r v s).env =
    if s.phase = .rData then { s.env with rbuf := Memory.put s.env.rbuf s.dp.idx.toNat v } else s.env := by
  unfold doneState; split <;> simp [*]

/-- An answer *done* completes the command with `OK` or leaves `BUSY`, `STATUS` and the response alone (10_state.md R18, R23). -/
theorem doneState_completion {s : State} (h : s.phase ≠ .idle) :
    ((doneState r v s).phase ≠ .idle ∧ (doneState r v s).busy = s.busy ∧ (doneState r v s).status = s.status ∧
      (doneState r v s).rsp = s.rsp) ∨
    ((doneState r v s).phase = .idle ∧ (doneState r v s).busy = false ∧ (doneState r v s).status = .ok ∧
      (doneState r v s).rsp = some .ok) := by
  unfold doneState
  cases hp : s.phase
  case idle => exact absurd hp h
  case wEnd => dsimp only; unfold endChunk; split <;> simp
  case rEnd => exact .inr ⟨rfl, rfl, rfl, rfl⟩
  all_goals exact .inl ⟨by simp [ite_eq_iff], rfl, rfl, rfl⟩

end Done

end Sys2Proof.Machine
end

section
/-! SUPPORT. The transfer's checks, and one inversion lemma for the whole step: the next states a step can lead to. -/

namespace Sys2Proof.Machine

/-! ## Everything a step can do -/

/-- R11 for one handle: a valid handle's density is legal. -/
def Handle.Legal (h : Handle) : Prop := h.hvalid = true → (dispatch h.density).isSome = true

/-- An admitted transfer: `WRITE` or `READ` of `len` bytes at `off` passes the checks with bytes to move (60_exceptions.md R186). -/
structure State.Admits (s : State) (r : Rec) (off len : Offset) : Prop where
  valid : s.handle.hvalid = true
  record : s.record = some r
  inReach : off.toNat + len.toNat ≤ reachOf r
  moves : len ≠ 0

theorem admitTransfer_of_admits {s : State} {r : Rec} {off len : Offset} (h : s.Admits r off len)
    (start : Rec → State → State) : admitTransfer off len start s = .next (start r s) := by
  simp only [admitTransfer, h.valid, h.record, (inRange_iff r off len).2 h.inReach, if_true, if_neg h.moves]

/-- Where the checks lead on, the command completes with its handle as it was, or its transfer is admitted. -/
theorem admitTransfer_next {off len : Offset} {start : Rec → State → State} {s t : State}
    (h : admitTransfer off len start s = .next t) :
    (∃ st, t = complete st s) ∨ ∃ r, s.Admits r off len ∧ t = start r s := by
  rcases admitTransfer_cases off len start s with ⟨-, h'⟩ | ⟨-, -, h'⟩ | ⟨r, -, -, -, h'⟩ | ⟨r, -, -, -, -, h'⟩ |
    ⟨r, hv, hr, hin, hne, h'⟩ <;> rw [h] at h'
  · exact .inl ⟨_, Host.Outcome.next.inj h'⟩
  · cases h'
  · exact .inl ⟨_, Host.Outcome.next.inj h'⟩
  · exact .inl ⟨_, Host.Outcome.next.inj h'⟩
  · exact .inr ⟨r, ⟨hv, hr, (inRange_iff r off len).1 hin, hne⟩, Host.Outcome.next.inj h'⟩

/-- Where an accepted command leads on, it completes, with a handle no less legal than before, or starts its transfer. -/
theorem exec_next {i : Instr} {s t : State} (h : exec i s = .next t) :
    (∃ st hd, (s.handle.Legal → hd.Legal) ∧ t = complete st { s with handle := hd }) ∨
    (∃ off len r, i = .write off len ∧ s.Admits r off len ∧ t = startWrite off len r s) ∨
    (∃ off len r, i = .read off len ∧ s.Admits r off len ∧ t = startRead off len r s) := by
  cases i with
  | createHandle b d =>
    change execCreateHandle b d s = .next t at h
    left
    rcases execCreateHandle_cases b d s with ⟨-, h'⟩ | ⟨r, hr, h'⟩ <;> obtain rfl := Host.Outcome.next.inj (h.symm.trans h')
    · exact ⟨.errConfig, { s.handle with hvalid := false }, fun _ hv => Bool.noConfusion hv, rfl⟩
    · exact ⟨.ok, (s.storeHandle b d).handle, fun _ _ => Option.isSome_of_eq_some hr, rfl⟩
  | write off len =>
    rcases admitTransfer_next h with ⟨st, rfl⟩ | ⟨r, had, rfl⟩
    · exact .inl ⟨st, s.handle, id, rfl⟩
    · exact .inr (.inl ⟨off, len, r, rfl, had, rfl⟩)
  | read off len =>
    rcases admitTransfer_next h with ⟨st, rfl⟩ | ⟨r, had, rfl⟩
    · exact .inl ⟨st, s.handle, id, rfl⟩
    · exact .inr (.inr ⟨off, len, r, rfl, had, rfl⟩)

theorem settle_waiting {p : Sample} {o : TOp} {s : State} (h : transportReply p o s.env = .waiting) :
    settle p o s = .next s := by simp [settle, h]

theorem settle_failed {p : Sample} {o : TOp} {s : State} {e : Env} (h : transportReply p o s.env = .failed e) :
    settle p o s = .next (raise .errTransport { s with outstanding := none, env := e }) := by simp [settle, h]

theorem settle_done {p : Sample} {o : TOp} {s : State} {v : Byte} {e : Env} (h : transportReply p o s.env = .done v e) :
    settle p o s = onDone v { s with outstanding := none, env := e } := by simp [settle, h]

theorem settle_refused {p : Sample} {o : TOp} {s : State} {x : Refusal} (h : transportReply p o s.env = .refused x) :
    settle p o s = .refused x := by simp [settle, h]

/-- The step's state with `o` answered, before the answer's consequences: `o` is off the port, the environment is `e`. -/
def State.answered (s : State) (o : TOp) (e : Env) : State := { s.sample.issue o with outstanding := none, env := e }

/-- The next states a step from `s` can lead to, one constructor per kind of step (10_state.md R20 to R25). -/
inductive StepTo (s : State) : State → Prop
  | resets (rst : s.pins.rst = true) : StepTo s (resetStep s.pins s.sample)
  | idles (rst : s.pins.rst = false) (idle : s.phase = .idle) (quiet : s.pins.cmd = none) : StepTo s s.sample
  | completes (w : CmdWord) (st : Status) (hd : Handle) (offer : s.offers w) (legal : s.handle.Legal → hd.Legal) :
    StepTo s (complete st { s.sample.accept w with handle := hd })
  | startsWrite (w : CmdWord) (r : Rec) (offer : s.offers w) (opcode : CmdWord.op w = 0b10#2)
    (admits : s.Admits r (CmdWord.offset w) (CmdWord.low w)) :
    StepTo s (startWrite (CmdWord.offset w) (CmdWord.low w) r (s.sample.accept w))
  | startsRead (w : CmdWord) (r : Rec) (offer : s.offers w) (opcode : CmdWord.op w = 0b11#2)
    (admits : s.Admits r (CmdWord.offset w) (CmdWord.low w)) :
    StepTo s (startRead (CmdWord.offset w) (CmdWord.low w) r (s.sample.accept w))
  | waits (o : TOp) (drives : s.Drives o) (reply : transportReply s.pins o s.sample.env = .waiting) :
    StepTo s (s.sample.issue o)
  | fails (o : TOp) (drives : s.Drives o) :
    StepTo s (raise .errTransport (s.answered o (s.sample.env.afterFail o s.pins.leftOpen)))
  | done (o : TOp) (v : Byte) (e : Env) (r : Rec) (drives : s.Drives o)
    (reply : transportReply s.pins o s.sample.env = .done v e) (record : ∀ r', s.record = some r' → r' = r) :
    StepTo s (doneState r v (s.answered o e))

/-- A failed answer leaves the environment `afterFail`. -/
theorem transportReply_failed {p : Sample} {o : TOp} {e e' : Env} (h : transportReply p o e = .failed e') :
    e' = e.afterFail o p.leftOpen := by
  rcases transportReply_cases p o e with ⟨-, h'⟩ | ⟨_, -, -, h'⟩ | ⟨-, -, h'⟩ | ⟨_, -, -, -, h'⟩ | ⟨_, _, _, -, -, -, h'⟩ |
    ⟨_, -, -, -, h'⟩ <;> rw [h] at h' <;> cases h'
  rfl

/-- A *done* answer is the oracle's or the attached device's. -/
theorem transportReply_done {p : Sample} {o : TOp} {e e' : Env} {v : Byte} (h : transportReply p o e = .done v e') :
    ∃ dev, e' = e.afterDone o dev ∧
      ((e.device = none ∧ dev = none) ∨ ∃ d d', e.device = some d ∧ d.respond o = .answered v d' ∧ dev = some d') := by
  rcases transportReply_cases p o e with ⟨-, h'⟩ | ⟨_, -, hd, h'⟩ | ⟨-, -, h'⟩ | ⟨_, -, -, -, h'⟩ | ⟨d, _, d', -, hd, hr, h'⟩ |
    ⟨_, -, -, -, h'⟩ <;> rw [h] at h' <;> cases h'
  · exact ⟨none, rfl, .inl ⟨hd, rfl⟩⟩
  · exact ⟨some d', rfl, .inr ⟨d, d', hd, hr, rfl⟩⟩

/-- A driven step answered *done*, under a record. -/
theorem step_of_answeredDone {s : State} {r : Rec} {o : TOp} {v : Byte} {e : Env} (hd : s.Drives o)
    (hrep : transportReply s.pins o s.sample.env = .done v e) (hr : s.record = some r) :
    step s = .next (doneState r v (s.answered o e)) := by
  have hrep' : transportReply s.pins o (s.sample.issue o).env = .done v e := by rw [issue_env]; exact hrep
  rw [step_of_drives hd, settle_done hrep', ← onDone_eq (s := s.answered o e) ((record_congr (issue_handle o s.sample)).trans hr)]
  rfl

theorem stepTo_of_drives {s t : State} {o : TOp} (hdr : s.Drives o) (h : step s = .next t) : StepTo s t := by
  rw [step_of_drives hdr] at h
  cases hrep : transportReply s.pins o s.sample.env with
  | waiting =>
    rw [settle_waiting (by simpa using hrep)] at h
    obtain rfl := Host.Outcome.next.inj h
    exact .waits o hdr hrep
  | failed e =>
    rw [settle_failed (by simpa using hrep)] at h
    obtain rfl := Host.Outcome.next.inj h
    obtain rfl := transportReply_failed hrep
    exact .fails o hdr
  | done v e =>
    rw [settle_done (by simpa using hrep)] at h
    obtain ⟨r, rfl, hr⟩ := onDone_next h
    exact .done o v e r hdr hrep fun r' hr' => hr r' ((record_congr (by simp)).trans hr')
  | refused x =>
    rw [settle_refused (by simpa using hrep)] at h
    cases h

/-- Outside IDLE and without a reset a step drives an operation, or the sequencer refuses a `T.begin` in an open session. -/
theorem drives_or_refused {s : State} (hrst : s.pins.rst = false) (hrun : s.phase ≠ .idle) :
    (∃ o, s.Drives o) ∨ (step s = .refused .beginInOpenSession ∧ s.outstanding = none ∧ s.env.sessionOpen = true ∧
      (s.phase = .wBegin ∨ s.phase = .rBeginW ∨ s.phase = .rBeginR)) := by
  have hstep : step s = sequencerStep s.pins s.sample := by simp [step, engineStep, hrst, hrun]
  have hopen := sample_sessionOpen_of_ne_idle hrun
  rcases sequencerStep_cases s.pins s.sample with ⟨o, ho, -⟩ | ⟨-, hn, -⟩ | ⟨o, ho, hn, hb, hso, h⟩ | ⟨o, ho, hn, hb, -⟩
  · exact .inl ⟨o, hrst, hrun, pendingOp_of_some ho, fun hnone => absurd (ho.symm.trans hnone) (by simp)⟩
  · exact absurd (nextOp_isSome (s := s.sample) hrun) (by simp [hn])
  · exact .inr ⟨hstep.trans h, ho, hopen ▸ hso, (isBegin_of_nextOp hn).1 hb⟩
  · refine .inl ⟨o, hrst, hrun, (pendingOp_of_none (s := s) ho).trans hn, fun _ hph => ?_⟩
    rw [(isBegin_of_nextOp hn).2 hph, Bool.true_and, hopen] at hb
    exact hb

/-- All that a step can lead to. -/
theorem stepTo_of_next {s t : State} (h : step s = .next t) : StepTo s t := by
  rcases step_cases s with ⟨hrst, h'⟩ | ⟨hrst, hidle, hcmd, h'⟩ | ⟨w, hrst, hidle, hcmd, h'⟩ | ⟨hrst, hrun, -⟩
  · obtain rfl := Host.Outcome.next.inj (h.symm.trans h')
    exact .resets hrst
  · obtain rfl := Host.Outcome.next.inj (h.symm.trans h')
    exact .idles hrst hidle hcmd
  · rw [h', acceptStep] at h
    cases hdec : decode w with
    | error e =>
      rw [hdec] at h
      obtain rfl := Host.Outcome.next.inj h
      exact .completes w .errIllegalCmd s.handle ⟨hrst, hidle, hcmd⟩ id
    | ok i =>
      rw [hdec] at h
      rcases exec_next h with ⟨st, hd, hleg, rfl⟩ | ⟨off, len, r, rfl, had, rfl⟩ | ⟨off, len, r, rfl, had, rfl⟩
      · exact .completes w st hd ⟨hrst, hidle, hcmd⟩ hleg
      · obtain ⟨hop, rfl, rfl⟩ := decode_write hdec
        exact .startsWrite w r ⟨hrst, hidle, hcmd⟩ hop ⟨had.valid, had.record, had.inReach, had.moves⟩
      · obtain ⟨hop, rfl, rfl⟩ := decode_read hdec
        exact .startsRead w r ⟨hrst, hidle, hcmd⟩ hop ⟨had.valid, had.record, had.inReach, had.moves⟩
  · rcases drives_or_refused hrst hrun with ⟨o, hdr⟩ | ⟨href, -⟩
    · exact stepTo_of_drives hdr h
    · rw [href] at h; cases h

section Answered
variable (s : State) (o : TOp) (e : Env)

@[simp] theorem answered_handle : (s.answered o e).handle = s.handle := by simp [State.answered]
@[simp] theorem answered_latch : (s.answered o e).latch = s.latch := by simp [State.answered]
@[simp] theorem answered_dp : (s.answered o e).dp = s.dp := by simp [State.answered]
@[simp] theorem answered_phase : (s.answered o e).phase = s.phase := by simp [State.answered]
@[simp] theorem answered_busy : (s.answered o e).busy = s.busy := by simp [State.answered]
@[simp] theorem answered_status : (s.answered o e).status = s.status := by simp [State.answered]
@[simp] theorem answered_rsp : (s.answered o e).rsp = none := by simp [State.answered]
@[simp] theorem answered_outstanding : (s.answered o e).outstanding = none := rfl
@[simp] theorem answered_env : (s.answered o e).env = e := rfl
@[simp] theorem answered_log : (s.answered o e).log = s.log ++ s.issuing (s.sample.issueEvents o) :=
  issue_log o s.sample
theorem answered_buf : (s.answered o e).buf =
    if s.phase = .wData ∧ s.outstanding = none then { idx := s.dp.idx + s.dp.k.setWidth 16, re := true, we := false, wdata := s.buf.wdata }
    else { s.buf with re := false, we := false } :=
  issue_buf o s.sample

end Answered

end Sys2Proof.Machine
end

section
/-! SUPPORT. What the device, the environment and the cursors keep through every operation: the parts of the invariant. -/

namespace Sys2Proof.Machine

/-! ## The device's counter and session -/

/-- 20_memory.md R62: on density 1024 bit 16 of `AC` is 0. -/
def Device.CounterOk (d : Device) : Prop := d.density = 1024 → d.ac < 65536

theorem wrapInPage_lt {r : Rec} (hp : pageOf r = 256) {ac : Nat} (h : ac < 65536) : Device.wrapInPage r ac < 65536 := by
  unfold Device.wrapInPage; rw [hp]; omega

@[simp] theorem Device.store_density (r : Rec) (v : Byte) (d : Device) : (d.store r v).density = d.density := by
  unfold Device.store; split <;> rfl
@[simp] theorem Device.store_ac (r : Rec) (v : Byte) (d : Device) : (d.store r v).ac = Device.wrapInPage r d.ac := by
  unfold Device.store; split <;> rfl
@[simp] theorem Device.store_session (r : Rec) (v : Byte) (d : Device) : (d.store r v).session = .data true := by
  unfold Device.store; split <;> rfl

theorem Device.store_counter {r : Rec} {d : Device} (hr : dispatch d.density = some r) (h : d.CounterOk) (v : Byte) :
    (d.store r v).CounterOk := by
  intro hd
  rw [Device.store_density] at hd
  rw [Device.store_ac]
  exact wrapInPage_lt (pageOf_of_1024 (hd ▸ hr)) (h hd)

theorem Device.takeAddress_counter {r : Rec} {d : Device} (hr : dispatch d.density = some r) (h : d.CounterOk) (hi : Nat)
    (first : Option Byte) (a : Byte) : (d.takeAddress r hi first a).CounterOk := by
  have h2 : d.density = 1024 → r.addrBytes = 2 := fun hd =>
    dispatch_forall (P := fun r => r.density = 1024 → r.addrBytes = 2) (by decide) hr ((dispatch_density hr).trans hd)
  unfold Device.takeAddress
  split
  · split
    · exact h
    · rename_i hne
      exact fun hd => absurd (h2 hd) hne
  · rename_i a1
    exact fun _ => Nat.lt_of_le_of_lt (Nat.mod_le _ _) (by have := a1.isLt; have := a.isLt; omega)

theorem Device.close_counter {r : Rec} {d : Device} (hr : dispatch d.density = some r) (h : d.CounterOk) :
    (d.close r).CounterOk := by
  unfold Device.close
  split
  · exact h
  · exact fun hd => heldAc_lt ((dispatch_density hr).trans hd) _
  · exact h

/-- Whatever the device answers, bit 16 of its counter stays 0 on density 1024. -/
theorem Device.respond_counter {d d' : Device} {o : TOp} {v : Byte} (h : d.CounterOk) (hr : d.respond o = .answered v d') :
    d'.CounterOk := by
  unfold Device.respond at hr
  split at hr
  · cases hr
  · rename_i r hdisp
    have hread : ∀ next, (d.afterRead r next).CounterOk := fun _ hd => heldAc_lt ((dispatch_density hdisp).trans hd) _
    unfold Device.react at hr
    split at hr <;> split at hr <;> cases hr
    · exact h
    · exact Device.takeAddress_counter hdisp h _ _ _
    · exact Device.store_counter hdisp h _
    · exact hread _
    · exact hread _
    · exact Device.close_counter hdisp h

theorem Device.cutChunk_counter {d : Device} (h : d.CounterOk) (o : Option TOp) : (d.cutChunk o).CounterOk := by
  show (d.mayStore o).CounterOk
  unfold Device.mayStore
  split
  · exact Device.store_counter ‹_› h _
  · exact h

theorem Device.cutCounter_counter {d : Device} (h : d.CounterOk) (o : Option TOp) : (d.cutCounter o).CounterOk := by
  unfold Device.cutCounter
  split
  · exact h
  · rename_i r hdisp
    split
    · exact fun hd => heldAc_lt ((dispatch_density hdisp).trans hd) _
    · exact h

theorem Device.abort_counter {d : Device} (h : d.CounterOk) (o : Option TOp) (ended : Bool) : (d.abort o ended).CounterOk := by
  have hcut : (d.cut o).CounterOk := by
    unfold Device.cut
    split
    · exact Device.cutCounter_counter (Device.cutChunk_counter h o) o
    · exact Device.cutCounter_counter h o
  cases ended <;> exact hcut

/-- What a `T.begin` the device answers opens: a write session for an even bus byte, else a read session (20_memory.md R61). -/
theorem respond_begin_session {d d' : Device} {b v : Byte} (h : d.respond (.beginSession b) = .answered v d') :
    if b.getLsbD 0 = true then d'.session = .reading else ∃ hi, d'.session = .address hi none := by
  unfold Device.respond at h
  split at h
  · cases h
  · simp only [Device.react] at h
    split at h <;> cases h
    cases hb : b.getLsbD 0 <;> simp only [Device.select, hb]
    · exact ⟨_, rfl⟩
    · rfl

/-- A byte taken leaves a write session (20_memory.md R62, R63). -/
theorem respond_writeByte_session {d d' : Device} {a v : Byte} (h : d.respond (.writeByte a) = .answered v d') :
    (∃ hi first, d'.session = .address hi first) ∨ ∃ stored, d'.session = .data stored := by
  unfold Device.respond at h
  split at h
  · cases h
  · simp only [Device.react] at h
    split at h <;> cases h
    · unfold Device.takeAddress
      split
      · split
        · exact .inl ⟨_, _, rfl⟩
        · exact .inr ⟨_, rfl⟩
      · exact .inr ⟨_, rfl⟩
    · exact .inr ⟨true, Device.store_session _ _ _⟩

/-- A read leaves the session reading, `RN` leaves it released (20_memory.md R64). -/
theorem respond_read_session {d d' : Device} {o : TOp} {v : Byte} (ho : o = .readByteAck ∨ o = .readByteNak)
    (h : d.respond o = .answered v d') : d'.session = if o = .readByteNak then .released else .reading := by
  unfold Device.respond at h
  split at h
  · cases h
  · rcases ho with rfl | rfl <;> simp only [Device.react] at h <;> split at h <;> cases h <;> rfl

/-! ## The environment -/

/-- The environment's part of the invariant: canonical memories, and the device's counter. -/
structure Env.Sound (e : Env) : Prop where
  wbuf : Memory.wf e.wbuf
  rbuf : Memory.wf e.rbuf
  device : ∀ d, e.device = some d → Memory.wf d.mem ∧ d.CounterOk

theorem Inv.sound {s : State} (h : Inv s) : s.env.Sound :=
  ⟨h.wbufWf, h.rbufWf, fun d hd => ⟨h.memWf d hd, h.counter d hd⟩⟩

theorem sample_sound {s : State} (h : s.env.Sound) : s.sample.env.Sound where
  wbuf := Memory.putAll_wf h.wbuf _
  rbuf := Memory.putAll_wf h.rbuf _
  device := fun d hd => by
    rw [sample_device, Option.map_eq_some_iff] at hd
    obtain ⟨d0, hd0, rfl⟩ := hd
    obtain ⟨hwf, hac⟩ := h.device d0 hd0
    split
    · exact ⟨Device.abort_wf (d := d0.tick) hwf _ _, Device.abort_counter (d := d0.tick) hac _ _⟩
    · exact ⟨hwf, hac⟩

theorem map_abort_sound {e : Env} (h : e.Sound) (o : Option TOp) (ended isOpen : Bool) :
    Env.Sound { e with sessionOpen := isOpen, device := e.device.map (Device.abort o ended) } where
  wbuf := h.wbuf
  rbuf := h.rbuf
  device := fun d hd => by
    obtain ⟨d0, hd0, rfl⟩ := Option.map_eq_some_iff.1 hd
    obtain ⟨hwf, hac⟩ := h.device d0 hd0
    exact ⟨Device.abort_wf hwf _ _, Device.abort_counter hac _ _⟩

theorem afterFail_sound {e : Env} (h : e.Sound) (o : TOp) (lo : Bool) : (e.afterFail o lo).Sound := by
  unfold Env.afterFail
  split
  · exact h
  · exact map_abort_sound h _ _ _

theorem afterReset_sound {e : Env} (h : e.Sound) (busy : Bool) (o : Option TOp) (lo : Bool) :
    (e.afterReset busy o lo).Sound := by
  unfold Env.afterReset
  split
  · exact map_abort_sound h _ _ _
  · exact h

theorem reply_done_sound {p : Sample} {o : TOp} {e e' : Env} {v : Byte} (h : e.Sound)
    (hr : transportReply p o e = .done v e') : e'.Sound := by
  obtain ⟨dev, rfl, hdev⟩ := transportReply_done hr
  refine ⟨h.wbuf, h.rbuf, fun d hd => ?_⟩
  rcases hdev with ⟨-, rfl⟩ | ⟨d0, d1, hd0, hresp, rfl⟩
  · cases hd
  · obtain rfl : d1 = d := Option.some.inj hd
    exact ⟨Device.respond_wf (h.device d0 hd0).1 hresp, Device.respond_counter (h.device d0 hd0).2 hresp⟩

theorem doneState_sound {s : State} (h : s.env.Sound) (r : Rec) (v : Byte) : (doneState r v s).env.Sound := by
  rw [doneState_env]
  split
  · exact ⟨h.wbuf, Memory.put_wf h.rbuf _ _, h.device⟩
  · exact h

/-! ## The cursors of a running transfer -/

theorem record_dispatch {s : State} {r : Rec} (h : s.record = some r) : dispatch s.handle.density = some r := h

/-- The registers of a running transfer, of whichever kind its phase is. -/
def TransferInv (r : Rec) (s : State) : Prop := if s.phase.isWrite then WriteInv r s else ReadInv r s

theorem TransferInv.write {r : Rec} {s : State} (h : TransferInv r s) (hw : s.phase.isWrite = true) : WriteInv r s := by
  rwa [TransferInv, if_pos hw] at h

theorem TransferInv.read {r : Rec} {s : State} (h : TransferInv r s) (hw : s.phase.isWrite = false) : ReadInv r s := by
  rwa [TransferInv, if_neg (by simp [hw])] at h

theorem TransferInv.of_write {r : Rec} {s : State} (hw : s.phase.isWrite = true) (h : WriteInv r s) : TransferInv r s := by
  rwa [TransferInv, if_pos hw]

theorem TransferInv.of_read {r : Rec} {s : State} (hw : s.phase.isWrite = false) (h : ReadInv r s) : TransferInv r s := by
  rwa [TransferInv, if_neg (by simp [hw])]

/-- The registers decide: the port, the response and the environment do not matter. -/
theorem WriteInv.congr {r : Rec} {s t : State} (h : WriteInv r s) (hh : t.handle = s.handle) (hl : t.latch = s.latch)
    (hd : t.dp = s.dp) (hp : t.phase = s.phase) : WriteInv r t where
  inReach := by rw [hl]; exact h.inReach
  parts := by rw [hd, hl]; exact h.parts
  bus := by rw [hd, base_congr hh]; exact h.bus
  opcode := by rw [hl]; exact h.opcode
  curOff := by rw [hd, hl]; exact h.curOff
  left := by rw [hd]; exact h.left
  pos := by rw [hd]; exact h.pos
  chunk := by rw [hd]; exact h.chunk
  high := by rw [hp]; exact h.high
  k := by rw [hd, hp]; exact h.k

theorem ReadInv.congr {r : Rec} {s t : State} (h : ReadInv r s) (hh : t.handle = s.handle) (hl : t.latch = s.latch)
    (hd : t.dp = s.dp) (hp : t.phase = s.phase) : ReadInv r t where
  inReach := by rw [hl]; exact h.inReach
  parts := by rw [hd, hl]; exact h.parts
  bus := by rw [hd, base_congr hh]; exact h.bus
  opcode := by rw [hl]; exact h.opcode
  curOff := by rw [hd, hl]; exact h.curOff
  high := by rw [hp]; exact h.high
  left := by rw [hd, hp]; exact h.left

theorem TransferInv.congr {r : Rec} {s t : State} (h : TransferInv r s) (hh : t.handle = s.handle) (hl : t.latch = s.latch)
    (hd : t.dp = s.dp) (hp : t.phase = s.phase) : TransferInv r t := by
  cases hw : s.phase.isWrite with
  | true => exact .of_write (hp ▸ hw) ((h.write hw).congr hh hl hd hp)
  | false => exact .of_read (hp ▸ hw) ((h.read hw).congr hh hl hd hp)

theorem offset_pos {x : Offset} (h : x ≠ 0) : 1 ≤ x.toNat :=
  Nat.pos_of_ne_zero fun h0 => h (BitVec.eq_of_toNat_eq h0)

/-- 10_state.md R15 for a running `WRITE`: the position is inside the page, and the chunk is what is left of the page or of the
request. -/
theorem WriteInv.range {r : Rec} {s : State} {d : BitVec 16} (hr : dispatch d = some r) (h : WriteInv r s) :
    s.dp.pos.toNat = s.dp.curOff.toNat % pageOf r ∧ s.dp.pos.toNat < pageOf r ∧
    s.dp.chunk.toNat = min (pageOf r - s.dp.pos.toNat) s.dp.rem.toNat ∧ 1 ≤ s.dp.rem.toNat ∧ 1 ≤ s.dp.chunk.toNat := by
  have hpos : s.dp.pos.toNat = s.dp.curOff.toNat % pageOf r := by rw [h.pos, pagePos_toNat hr]
  have hlt : s.dp.pos.toNat < pageOf r := hpos ▸ Nat.mod_lt _ (by have := pageOf_bounds hr; omega)
  have hchunk : s.dp.chunk.toNat = min (pageOf r - s.dp.pos.toNat) s.dp.rem.toNat := by
    rw [h.chunk, chunkSize_toNat hr _ hlt]
  have hrem := offset_pos h.left
  exact ⟨hpos, hlt, hchunk, hrem, by omega⟩

theorem chunk_setWidth_toNat (c : BitVec 9) : (c.setWidth 16).toNat = c.toNat := by
  rw [BitVec.toNat_setWidth]; have := c.isLt; omega

/-- `REM`, `CUR_OFF`, `IDX` after the chunk, as numbers: nothing wraps while data is left (10_state.md R15). -/
theorem WriteInv.advance {r : Rec} {s : State} {d : BitVec 16} (hr : dispatch d = some r) (h : WriteInv r s) :
    (s.dp.rem - s.dp.chunk.setWidth 16).toNat = s.dp.rem.toNat - s.dp.chunk.toNat ∧
    (s.dp.rem - s.dp.chunk.setWidth 16 ≠ 0 →
      (s.dp.curOff + s.dp.chunk.setWidth 16).toNat = s.dp.curOff.toNat + s.dp.chunk.toNat ∧
      (s.dp.idx + s.dp.chunk.setWidth 16).toNat = s.dp.idx.toNat + s.dp.chunk.toNat) := by
  obtain ⟨-, -, hchunk, hrem1, hchunk1⟩ := h.range hr
  have hreach := reachOf_le hr
  have hin := h.inReach
  have hparts := h.parts
  have hcur := h.curOff
  have hlen := s.latch.cLen.isLt
  have hcw := chunk_setWidth_toNat s.dp.chunk
  have hrem : (s.dp.rem - s.dp.chunk.setWidth 16).toNat = s.dp.rem.toNat - s.dp.chunk.toNat := by
    rw [BitVec.toNat_sub_of_le (by rw [BitVec.le_def, hcw]; omega), hcw]
  refine ⟨hrem, fun hne => ?_⟩
  have hpos := hrem ▸ offset_pos hne
  rw [BitVec.toNat_add, BitVec.toNat_add, hcw]
  constructor <;> apply Nat.mod_eq_of_lt <;> omega

/-- The next phase inside a chunk before its data: only the phase moves. -/
theorem WriteInv.toPhase {r : Rec} {s : State} (h : WriteInv r s) {ph : Phase}
    (hk : match ph with | .wData => s.dp.k < s.dp.chunk | .wEnd => s.dp.k = s.dp.chunk | _ => s.dp.k = 0)
    (hhigh : ph = .wAhi → r.addrBytes = 2) :
    WriteInv r { s with phase := ph } :=
  { toCursors := ⟨h.inReach, h.parts, h.bus⟩, opcode := h.opcode, curOff := h.curOff, left := h.left, pos := h.pos,
    chunk := h.chunk, high := hhigh, k := hk }

/-- The data byte sent: `K` goes on by one, and the chunk ends where it reaches `CHUNK`. -/
theorem WriteInv.dataSent {r : Rec} {s : State} (h : WriteInv r s) (hk : s.dp.k < s.dp.chunk) :
    WriteInv r { s with
      dp := { s.dp with k := s.dp.k + 1 }, phase := if s.dp.k + 1 = s.dp.chunk then .wEnd else .wData } := by
  have hk1 : (s.dp.k + 1).toNat = s.dp.k.toNat + 1 := by
    rw [BitVec.lt_def] at hk
    rw [BitVec.toNat_add_of_lt] <;> simp; omega
  by_cases hlast : s.dp.k + 1 = s.dp.chunk
  · rw [if_pos hlast]
    exact { toCursors := ⟨h.inReach, h.parts, h.bus⟩, opcode := h.opcode, curOff := h.curOff, left := h.left, pos := h.pos,
            chunk := h.chunk, high := (nomatch ·), k := hlast }
  · rw [if_neg hlast]
    have hlt : s.dp.k + 1 < s.dp.chunk := by
      have hne := mt BitVec.eq_of_toNat_eq hlast
      rw [BitVec.lt_def] at hk ⊢
      omega
    exact { toCursors := ⟨h.inReach, h.parts, h.bus⟩, opcode := h.opcode, curOff := h.curOff, left := h.left, pos := h.pos,
            chunk := h.chunk, high := (nomatch ·), k := hlt }

/-- The chunk ended with data left: the cursors move on by the chunk, and the next one is set up. -/
theorem WriteInv.nextChunk {r : Rec} {s : State} {d : BitVec 16} (hr : dispatch d = some r) (h : WriteInv r s)
    (hne : s.dp.rem - s.dp.chunk.setWidth 16 ≠ 0) : WriteInv r { chunkSetup r (advanceChunk s) with phase := .wBegin } := by
  obtain ⟨-, -, hchunk, -, -⟩ := h.range hr
  obtain ⟨hrem, hadv⟩ := h.advance hr
  obtain ⟨hcur, hidx⟩ := hadv hne
  have hparts := h.parts
  exact
    { inReach := h.inReach
      parts := by
        show (s.dp.idx + s.dp.chunk.setWidth 16).toNat + (s.dp.rem - s.dp.chunk.setWidth 16).toNat = s.latch.cLen.toNat
        omega
      bus := rfl
      opcode := h.opcode
      curOff := by
        show (s.dp.curOff + s.dp.chunk.setWidth 16).toNat = s.latch.cOff.toNat + (s.dp.idx + s.dp.chunk.setWidth 16).toNat
        have := h.curOff
        omega
      left := hne
      pos := rfl
      chunk := rfl
      high := (nomatch ·)
      k := rfl }

/-- A step of a `WRITE` answered *done* keeps the cursors, or completes the command (10_state.md R21). -/
theorem WriteInv.doneState {r : Rec} {s : State} {d : BitVec 16} (hr : dispatch d = some r) (h : WriteInv r s) (v : Byte)
    (hw : s.phase.isWrite = true) :
    (doneState r v s).phase = .idle ∨ ((doneState r v s).phase.isWrite = true ∧ WriteInv r (doneState r v s)) := by
  have hk := h.k
  obtain ⟨-, -, -, -, hchunk1⟩ := h.range hr
  unfold Machine.doneState
  cases hp : s.phase <;> simp only [hp] at hk hw ⊢
  case wBegin =>
    by_cases h2 : r.addrBytes = 2
    · rw [if_pos h2]
      exact .inr ⟨rfl, h.toPhase hk (fun _ => h2)⟩
    · rw [if_neg h2]
      exact .inr ⟨rfl, h.toPhase hk (nomatch ·)⟩
  case wAhi => exact .inr ⟨rfl, h.toPhase hk (nomatch ·)⟩
  case wAlo =>
    refine .inr ⟨rfl, h.toPhase ?_ (nomatch ·)⟩
    show s.dp.k < s.dp.chunk
    rw [hk, BitVec.lt_def]; exact hchunk1
  case wData => exact .inr ⟨by split <;> rfl, h.dataSent hk⟩
  case wEnd =>
    unfold endChunk
    split
    · exact .inl rfl
    · exact .inr ⟨rfl, h.nextChunk hr ‹_›⟩
  all_goals cases hw

/-- The next phase of a `READ` before its data: only the phase moves. -/
theorem ReadInv.toPhase {r : Rec} {s : State} (h : ReadInv r s) {ph : Phase}
    (hleft : match ph with | .rEnd => s.dp.rem = 0 | .rData => s.dp.rem ≠ 0 | _ => s.dp.rem ≠ 0 ∧ s.dp.idx = 0)
    (hhigh : ph = .rAhi → r.addrBytes = 2) :
    ReadInv r { s with phase := ph } :=
  { toCursors := ⟨h.inReach, h.parts, h.bus⟩, opcode := h.opcode, curOff := h.curOff, high := hhigh, left := hleft }

/-- `IDX` and `REM` after a byte received, as numbers (10_state.md R22). -/
theorem ReadInv.advance {r : Rec} {s : State} (h : ReadInv r s) (hne : s.dp.rem ≠ 0) :
    (s.dp.idx + 1).toNat = s.dp.idx.toNat + 1 ∧ (s.dp.rem - 1).toNat = s.dp.rem.toNat - 1 := by
  have hparts := h.parts
  have hlen := s.latch.cLen.isLt
  have hrem := offset_pos hne
  constructor
  · rw [BitVec.toNat_add_of_lt] <;> simp; omega
  · rw [BitVec.toNat_sub_of_le (by rw [BitVec.le_def]; exact hrem)]; rfl

/-- The byte received: the cursors move on by one, and the data ends where nothing is left. -/
theorem ReadInv.dataReceived {r : Rec} {s : State} (h : ReadInv r s) (hne : s.dp.rem ≠ 0) (v : Byte) :
    ReadInv r { advanceRead (s.rbufWrite s.dp.idx v) with phase := if s.dp.rem - 1 = 0 then .rEnd else .rData } := by
  obtain ⟨hidx, hrem⟩ := h.advance hne
  have hparts : (s.dp.idx + 1).toNat + (s.dp.rem - 1).toNat = s.latch.cLen.toNat := by
    have := h.parts
    have := offset_pos hne
    omega
  by_cases hlast : s.dp.rem - 1 = 0
  · rw [if_pos hlast]
    exact { toCursors := ⟨h.inReach, hparts, h.bus⟩, opcode := h.opcode, curOff := h.curOff, high := (nomatch ·),
            left := hlast }
  · rw [if_neg hlast]
    exact { toCursors := ⟨h.inReach, hparts, h.bus⟩, opcode := h.opcode, curOff := h.curOff, high := (nomatch ·),
            left := hlast }

/-- A step of a `READ` answered *done* keeps the cursors, or completes the command (10_state.md R22). -/
theorem ReadInv.doneState {r : Rec} {s : State} (h : ReadInv r s) (v : Byte) (hrun : s.phase ≠ .idle)
    (hw : s.phase.isWrite = false) :
    (doneState r v s).phase = .idle ∨ ((doneState r v s).phase.isWrite = false ∧ ReadInv r (doneState r v s)) := by
  have hleft := h.left
  unfold Machine.doneState
  cases hp : s.phase <;> simp only [hp] at hleft hw ⊢
  case idle => exact absurd hp hrun
  case rBeginW =>
    by_cases h2 : r.addrBytes = 2
    · rw [if_pos h2]
      exact .inr ⟨rfl, h.toPhase hleft (fun _ => h2)⟩
    · rw [if_neg h2]
      exact .inr ⟨rfl, h.toPhase hleft (nomatch ·)⟩
  case rAhi | rAlo | rEndW => exact .inr ⟨rfl, h.toPhase hleft (nomatch ·)⟩
  case rBeginR => exact .inr ⟨rfl, h.toPhase hleft.1 (nomatch ·)⟩
  case rData => exact .inr ⟨by split <;> rfl, h.dataReceived hleft v⟩
  case rEnd => exact .inl rfl
  all_goals cases hw

/-- A running transfer's step answered *done* keeps its cursors, or completes the command. -/
theorem TransferInv.doneState {r : Rec} {s : State} {d : BitVec 16} (hr : dispatch d = some r) (h : TransferInv r s)
    (v : Byte) (hrun : s.phase ≠ .idle) (hrun' : (doneState r v s).phase ≠ .idle) : TransferInv r (doneState r v s) := by
  cases hw : s.phase.isWrite with
  | true =>
    obtain ⟨hw', h'⟩ := ((h.write hw).doneState hr v hw).resolve_left hrun'
    exact .of_write hw' h'
  | false =>
    obtain ⟨hw', h'⟩ := ((h.read hw).doneState v hrun hw).resolve_left hrun'
    exact .of_read hw' h'

end Sys2Proof.Machine
end

section
/-! SUPPORT. The invariant is kept by every step, one lemma per kind of step. -/

namespace Sys2Proof.Machine

/-! ## The operation of a phase, under the invariant -/

/-- The operation a phase has on the port (10_state.md R21, R22), whatever byte it carries. -/
def State.Issues (s : State) (o : TOp) : Prop :=
  match s.phase with
  | .idle => False
  | .wBegin | .rBeginW => o = .beginSession s.dp.busb
  | .wAhi | .wAlo | .wData | .rAhi | .rAlo => ∃ v, o = .writeByte v
  | .wEnd | .rEndW | .rEnd => o = .endSession
  | .rBeginR => o = .beginSession (s.dp.busb ||| 0x01#8)
  | .rData => o = if 1#16 < s.dp.rem then .readByteAck else .readByteNak

theorem issues_of_nextOp {s : State} {o : TOp} (h : s.nextOp = some o) : s.Issues o := by
  unfold State.nextOp at h
  unfold State.Issues
  cases hp : s.phase <;> simp only [hp] at h ⊢ <;> cases h <;> simp

theorem issues_of_outstandingOk {s : State} {o : TOp} (h : OutstandingOk s o) : s.Issues o := by
  unfold OutstandingOk at h
  split at h
  · rename_i hp
    simpa [State.Issues, hp] using h
  · exact issues_of_nextOp h

/-- Under the invariant the operation of a step is the phase's. -/
theorem Inv.issues {s : State} {o : TOp} (h : Inv s) (hd : s.Drives o) : s.Issues o := by
  cases ho : s.outstanding with
  | some o' =>
    obtain rfl : o' = o := by simpa [pendingOp_of_some ho] using hd.pending
    exact issues_of_outstandingOk (h.issued o' ho)
  | none =>
    have hissues : s.sample.Issues o := issues_of_nextOp ((pendingOp_of_none ho).symm.trans hd.pending)
    exact hissues

theorem nextOp_congr {s t : State} (hd : t.dp = s.dp) (hp : t.phase = s.phase) (h : s.phase ≠ .wData) :
    t.nextOp = s.nextOp := by
  unfold State.nextOp
  rw [hp, hd]
  cases hph : s.phase <;> simp_all

theorem outstandingOk_congr {s t : State} {o : TOp} (h : OutstandingOk s o) (hd : t.dp = s.dp) (hp : t.phase = s.phase) :
    OutstandingOk t o := by
  unfold OutstandingOk at h ⊢
  rw [hp]
  split at h
  · rwa [if_pos ‹_›]
  · rwa [if_neg ‹_›, nextOp_congr hd hp ‹_›]

theorem outstandingOk_of_nextOp {s : State} {o : TOp} (h : s.nextOp = some o) : OutstandingOk s o := by
  unfold OutstandingOk
  split
  · rename_i hp
    simp only [State.nextOp, hp, Option.some.injEq] at h
    exact ⟨_, h.symm⟩
  · exact h

theorem Inv.legalHandle {s : State} (h : Inv s) : s.handle.Legal := h.legal

theorem Inv.transfer {s : State} (h : Inv s) (hrun : s.phase ≠ .idle) :
    s.handle.hvalid = true ∧ ∃ r, s.record = some r ∧ TransferInv r s := h.running hrun

theorem TransferInv.busb_even {r : Rec} {s : State} (h : TransferInv r s) : s.dp.busb.getLsbD 0 = false := by
  unfold TransferInv at h
  split at h
  · rw [h.bus]; exact busAddr_even r s _
  · rw [h.bus]; exact busAddr_even r s _

/-! ## The device's session follows the phase -/

theorem fits_of_write_session {d : Device} {ph : Phase} (hph : ph.inReadSession = false)
    (h : (∃ hi first, d.session = .address hi first) ∨ ∃ stored, d.session = .data stored) : d.session.fits ph = true := by
  rcases h with ⟨_, _, hd⟩ | ⟨_, hd⟩ <;> simp [hd, DevSession.fits, hph]

/-- A device that answers the phase's operation *done* expects what the next phase brings (43_transport.md R170). -/
theorem session_fits_doneState {r : Rec} {s : State} {o : TOp} {v : Byte} {d d' : Device} (ho : s.Issues o)
    (heven : s.dp.busb.getLsbD 0 = false) (hrem : s.phase = .rData → s.dp.rem ≠ 0) (hresp : d.respond o = .answered v d')
    (hin : (doneState r v s).phase.inSession = true) : d'.session.fits (doneState r v s).phase = true := by
  have hwrite : ∀ a, o = .writeByte a → ∀ ph, Phase.inReadSession ph = false → d'.session.fits ph = true :=
    fun a ha ph hph => fits_of_write_session hph (respond_writeByte_session (ha ▸ hresp))
  have hbegin : o = .beginSession s.dp.busb → ∀ ph, Phase.inReadSession ph = false → d'.session.fits ph = true := by
    intro hb ph hph
    have hs := respond_begin_session (hb ▸ hresp)
    rw [heven] at hs
    obtain ⟨hi, hs⟩ := hs
    exact fits_of_write_session hph (.inl ⟨hi, none, hs⟩)
  unfold doneState State.Issues at *
  cases hp : s.phase <;> simp only [hp] at ho hin hrem ⊢
  case wBegin | rBeginW => exact hbegin ho _ (by split <;> rfl)
  case wAhi | wAlo | rAhi | rAlo => obtain ⟨a, ha⟩ := ho; exact hwrite a ha _ rfl
  case wData => obtain ⟨a, ha⟩ := ho; exact hwrite a ha _ (by split <;> rfl)
  case wEnd => unfold endChunk at hin; split at hin <;> cases hin
  case rEndW | rEnd => cases hin
  case rBeginR =>
    have hs := respond_begin_session (ho ▸ hresp)
    rw [if_pos (busAddr_read_odd _)] at hs
    rw [hs]; rfl
  case rData =>
    have hread : o = .readByteAck ∨ o = .readByteNak := by rw [ho]; split <;> simp
    rw [respond_read_session hread hresp, ho]
    have hlast : 1#16 < s.dp.rem ↔ ¬ s.dp.rem - 1 = 0 := by
      have := hrem trivial
      bv_omega
    by_cases hl : s.dp.rem - 1 = 0
    · rw [if_neg (mt hlast.1 (not_not.2 hl)), if_pos hl, if_pos rfl]; rfl
    · rw [if_pos (hlast.2 hl), if_neg hl, if_neg (by decide)]; rfl

/-- The session on the bus after the phase's operation is done is the next phase's (43_transport.md R165, R169, R170). -/
theorem sessionAfter_doneState {r : Rec} {s : State} {o : TOp} {isOpen : Bool} (v : Byte) (ho : s.Issues o)
    (hopen : s.phase.inSession = true → isOpen = true) :
    ((doneState r v s).phase.inSession = true → sessionAfter o isOpen = true) ∧
    ((doneState r v s).phase.inSession = false → sessionAfter o isOpen = false) := by
  unfold doneState State.Issues at *
  cases hp : s.phase <;> simp only [hp] at ho hopen ⊢
  case wBegin | rBeginW => subst ho; exact ⟨fun _ => rfl, fun h => by split at h <;> cases h⟩
  case rBeginR => subst ho; exact ⟨fun _ => rfl, (nomatch ·)⟩
  case wAhi | wAlo | rAhi | rAlo => obtain ⟨a, rfl⟩ := ho; exact ⟨fun _ => hopen rfl, (nomatch ·)⟩
  case wData => obtain ⟨a, rfl⟩ := ho; exact ⟨fun _ => hopen rfl, fun h => by split at h <;> cases h⟩
  case wEnd => subst ho; unfold endChunk; split <;> exact ⟨(nomatch ·), fun _ => rfl⟩
  case rEndW | rEnd => subst ho; exact ⟨(nomatch ·), fun _ => rfl⟩
  case rData =>
    subst ho
    refine ⟨fun _ => ?_, fun h => by split at h <;> cases h⟩
    split <;> exact hopen rfl

/-! ## Every step keeps the invariant -/

/-- In IDLE the invariant asks for a legal handle, a quiet port and a sound environment only. -/
theorem Inv.of_idle {s : State} (hp : s.phase = .idle) (hb : s.busy = false) (ho : s.outstanding = none)
    (hleg : s.handle.Legal) (he : s.env.Sound) : Inv s where
  legal := hleg
  busy := by simp [hb, hp]
  wbufWf := he.wbuf
  rbufWf := he.rbuf
  memWf := fun d hd => (he.device d hd).1
  idleQuiet := fun _ => ho
  running := fun h => absurd hp h
  issued := fun o h => by rw [ho] at h; cases h
  session := fun h => by rw [hp] at h; cases h
  noSession := fun _ h => by rw [ho] at h; cases h
  betweenSessions := fun h => by rw [hp] at h; cases h
  counter := fun d hd => (he.device d hd).2
  deviceSession := fun h => by rw [hp] at h; cases h

/-- Outside IDLE with nothing on the port the invariant asks for the transfer's cursors and the phase's session. -/
theorem Inv.of_running {s : State} {r : Rec} (hp : s.phase ≠ .idle) (hb : s.busy = true) (ho : s.outstanding = none)
    (hv : s.handle.hvalid = true) (hr : s.record = some r) (ht : TransferInv r s) (he : s.env.Sound)
    (hopen : s.phase.inSession = true → s.env.sessionOpen = true) (hbetween : s.phase = .rBeginR → s.env.sessionOpen = false)
    (hdev : s.phase.inSession = true → ∀ d, s.env.device = some d → d.session.fits s.phase = true) : Inv s where
  legal := fun _ => Option.isSome_of_eq_some hr
  busy := by simp [hb, hp]
  wbufWf := he.wbuf
  rbufWf := he.rbuf
  memWf := fun d hd => (he.device d hd).1
  idleQuiet := fun _ => ho
  running := fun _ => ⟨hv, r, hr, ht⟩
  issued := fun o h => by rw [ho] at h; cases h
  session := hopen
  noSession := fun _ h => by rw [ho] at h; cases h
  betweenSessions := hbetween
  counter := fun d hd => (he.device d hd).2
  deviceSession := hdev

theorem resetStep_keeps_inv {s : State} (h : Inv s) (p : Sample) : Inv (resetStep p s.sample) :=
  .of_idle rfl rfl rfl (fun hv => Bool.noConfusion hv) (afterReset_sound (sample_sound h.sound) _ _ _)

theorem idle_sample_keeps_inv {s : State} (h : Inv s) (hp : s.phase = .idle) : Inv s.sample :=
  .of_idle hp (by simp [h.busy, hp]) (h.idleQuiet hp) h.legal (sample_sound h.sound)

/-- A `WRITE` or `READ` that starts its transfer establishes the cursors. -/
theorem startWrite_establishes_inv {s : State} {w : CmdWord} {r : Rec} (h : Inv s) (hoff : s.offers w) (hop : CmdWord.op w = 0b10#2)
    (had : s.Admits r (CmdWord.offset w) (CmdWord.low w)) :
    Inv (startWrite (CmdWord.offset w) (CmdWord.low w) r (s.sample.accept w)) := by
  refine .of_running (r := r) (by simp) rfl (h.idleQuiet hoff.2.1) had.valid had.record (.of_write rfl ?_)
    (sample_sound h.sound) (nomatch ·) (nomatch ·) (nomatch ·)
  exact { inReach := had.inReach, parts := by simp, bus := rfl, opcode := hop, curOff := by simp, left := had.moves,
          pos := rfl, chunk := rfl, high := (nomatch ·), k := rfl }

theorem startRead_establishes_inv {s : State} {w : CmdWord} {r : Rec} (h : Inv s) (hoff : s.offers w) (hop : CmdWord.op w = 0b11#2)
    (had : s.Admits r (CmdWord.offset w) (CmdWord.low w)) :
    Inv (startRead (CmdWord.offset w) (CmdWord.low w) r (s.sample.accept w)) := by
  refine .of_running (r := r) (by simp) rfl (h.idleQuiet hoff.2.1) had.valid had.record (.of_read rfl ?_)
    (sample_sound h.sound) (nomatch ·) (nomatch ·) (nomatch ·)
  exact { inReach := had.inReach, parts := by simp, bus := rfl, opcode := hop, curOff := rfl, high := (nomatch ·),
          left := ⟨had.moves, rfl⟩ }

/-- The phases outside a session and outside IDLE are those of a `T.begin`. -/
theorem begin_phase_of_not_inSession {ph : Phase} (hrun : ph ≠ .idle) (h : ph.inSession = false) :
    ph = .wBegin ∨ ph = .rBeginW ∨ ph = .rBeginR := by
  cases ph <;> simp_all [Phase.inSession]

/-- Outside IDLE a session of the device only ages. -/
theorem sample_fits {s : State} (h : Inv s) (hrun : s.phase ≠ .idle) (hin : s.phase.inSession = true) {d : Device}
    (hd : s.sample.env.device = some d) : d.session.fits s.phase = true := by
  rw [sample_device_of_ne_idle hrun] at hd
  obtain ⟨d0, hd0, rfl⟩ := Option.map_eq_some_iff.1 hd
  exact h.deviceSession hin d0 hd0

/-- A step that waits keeps the invariant: the operation is on the port. -/
theorem waiting_step_keeps_inv {s : State} {o : TOp} (h : Inv s) (hd : s.Drives o) : Inv (s.sample.issue o) := by
  have hrun := hd.running
  have hopen := sample_sessionOpen_of_ne_idle hrun
  have hsound := sample_sound h.sound
  obtain ⟨hv, r, hr, ht⟩ := h.transfer hrun
  have hout := issue_outstanding hd.pending
  have hok : OutstandingOk (s.sample.issue o) o := by
    cases ho : s.outstanding with
    | some o' =>
      obtain rfl : o' = o := by simpa [pendingOp_of_some ho] using hd.pending
      exact outstandingOk_congr (h.issued o' ho) (by simp) (by simp)
    | none =>
      exact outstandingOk_congr (outstandingOk_of_nextOp ((pendingOp_of_none ho).symm.trans hd.pending)) (by simp) (by simp)
  exact
    { legal := by simpa using h.legal
      busy := by simpa using h.busy
      wbufWf := by simpa using hsound.wbuf
      rbufWf := by simpa using hsound.rbuf
      memWf := fun d hd' => (hsound.device d (by simpa using hd')).1
      idleQuiet := fun hp => absurd (by simpa using hp) hrun
      running := fun _ => ⟨by simpa using hv, r, (record_congr (by simp)).trans hr, ht.congr (by simp) (by simp) (by simp) (by simp)⟩
      issued := fun o' ho' => by
        obtain rfl : o = o' := Option.some.inj (hout.symm.trans ho')
        exact hok
      session := fun hin => by
        rw [issue_phase] at hin
        rw [issue_env, hopen]
        exact h.session hin
      noSession := fun hin _ => by
        rw [issue_phase] at hin
        rw [issue_env, hopen]
        cases ho : s.outstanding with
        | some o' => exact h.noSession hin (by simp [ho])
        | none => exact hd.contract ho (begin_phase_of_not_inSession hrun hin)
      betweenSessions := fun hin => by
        rw [issue_phase] at hin
        rw [issue_env, hopen]
        exact h.betweenSessions hin
      counter := fun d hd' => (hsound.device d (by simpa using hd')).2
      deviceSession := fun hin d hd' => by
        rw [issue_phase] at hin ⊢
        rw [issue_env] at hd'
        exact sample_fits h hrun hin hd' }

theorem answered_transferInv {r : Rec} {s : State} (h : TransferInv r s) (o : TOp) (e : Env) :
    TransferInv r (s.answered o e) := h.congr (by simp) (by simp) (by simp) (by simp)

theorem TransferInv.left_of_rData {r : Rec} {s : State} (h : TransferInv r s) (hp : s.phase = .rData) : s.dp.rem ≠ 0 := by
  have := (h.read (by rw [hp]; rfl)).left
  rwa [hp] at this

/-- A step whose operation is answered *done* keeps the invariant. -/
theorem done_step_keeps_inv {s : State} {o : TOp} {v : Byte} {e : Env} {r : Rec} (h : Inv s) (hd : s.Drives o)
    (hrep : transportReply s.pins o s.sample.env = .done v e) (hr : s.record = some r) :
    Inv (doneState r v (s.answered o e)) := by
  have hrun := hd.running
  have hrun' : (s.answered o e).phase ≠ .idle := by simpa using hrun
  obtain ⟨hv, r', hr', ht⟩ := h.transfer hrun
  obtain rfl : r' = r := Option.some.inj (hr'.symm.trans hr)
  have ht' := answered_transferInv ht o e
  have hissues : (s.answered o e).Issues o := by simpa [State.Issues] using h.issues hd
  have hsound : (doneState r' v (s.answered o e)).env.Sound := doneState_sound (reply_done_sound (sample_sound h.sound) hrep) r' v
  obtain ⟨dev, rfl, hdev⟩ := transportReply_done hrep
  rcases doneState_completion r' v hrun' with ⟨hph, hb, -, -⟩ | ⟨hph, hb, -, -⟩
  · have hsess := sessionAfter_doneState (r := r') (isOpen := s.sample.env.sessionOpen) v hissues (fun hin => by
      rw [sample_sessionOpen_of_ne_idle hrun]; exact h.session (by simpa using hin))
    have henv : (doneState r' v (s.answered o (s.sample.env.afterDone o dev))).env.sessionOpen =
        sessionAfter o s.sample.env.sessionOpen := by rw [doneState_env]; split <;> rfl
    have hdevice : (doneState r' v (s.answered o (s.sample.env.afterDone o dev))).env.device = dev := by
      rw [doneState_env]; split <;> rfl
    refine .of_running (r := r') hph (hb.trans ?_) (by simp) (by simpa using hv) ((record_congr (by simp)).trans hr)
      (ht'.doneState hr v hrun' hph) hsound (henv ▸ hsess.1) (fun hp => henv ▸ hsess.2 (by rw [hp]; rfl)) fun hin d1 hd1 => ?_
    · simpa [hrun] using h.busy
    · rcases hdev with ⟨-, rfl⟩ | ⟨d0, d0', -, hresp, rfl⟩
      · rw [hdevice] at hd1; cases hd1
      · obtain rfl : d0' = d1 := Option.some.inj (hdevice.symm.trans hd1)
        exact session_fits_doneState hissues ht'.busb_even ht'.left_of_rData hresp hin
  · exact .of_idle hph hb (by simp) (by simpa using h.legalHandle) hsound

/-- Settles O41: each kind of next state has the invariant. -/
theorem everyStepKeepsTheInvariant : Obligations.EveryStepKeepsTheInvariant := by
  intro s t h hstep
  cases stepTo_of_next hstep with
  | resets => exact resetStep_keeps_inv h _
  | idles _ idle => exact idle_sample_keeps_inv h idle
  | completes w st hd offer legal => exact .of_idle rfl rfl (h.idleQuiet offer.2.1) (legal h.legal) (sample_sound h.sound)
  | startsWrite w r offer opcode admits => exact startWrite_establishes_inv h offer opcode admits
  | startsRead w r offer opcode admits => exact startRead_establishes_inv h offer opcode admits
  | waits o drives => exact waiting_step_keeps_inv h drives
  | fails o drives =>
    exact .of_idle rfl rfl rfl (by simpa using h.legalHandle) (afterFail_sound (sample_sound h.sound) _ _)
  | done o v e r drives reply record =>
    obtain ⟨-, r', hr', -⟩ := h.transfer drives.running
    obtain rfl := record r' hr'
    exact done_step_keeps_inv h drives reply hr'

end Sys2Proof.Machine
end

section
/-! SUPPORT. The statements about acceptance, answers, every step, and the consequences of the invariant. -/

namespace Sys2Proof.Machine

/-! ## Reset and the idle engine -/

/-- Settles O40. -/
theorem invariantHoldsAtReset : Obligations.InvariantHoldsAtReset :=
  .of_idle rfl rfl rfl (fun hv => Bool.noConfusion hv) ⟨.nil, .nil, fun _ hd => nomatch hd⟩

/-- Settles O38: every value is `State.reset`'s own. -/
theorem resetStateAsSpecified : Obligations.ResetStateAsSpecified := by
  unfold Obligations.ResetStateAsSpecified
  decide

/-- Settles O14. -/
theorem idleEngineWaits : Obligations.IdleEngineWaits := by
  intro s hrst hidle hcmd
  simp [step, engineStep, hrst, hidle, hcmd]

/-- Settles O8, row by row of the dispatch table. -/
theorem recordColumnsAreComputed : Obligations.RecordColumnsAreComputed := by
  intro d r h
  rw [← dispatch_density h]
  exact dispatch_forall
    (P := fun r => capOf r = r.density.toNat * 128 ∧ reachOf r = min (r.density.toNat * 128) 65536 ∧
      r.foldMask.toNat = (2 ^ r.foldBits.toNat - 1) * 256 ∧ (r.mode = .M1 ↔ r.addrBytes = 1 ∧ r.foldBits = 0) ∧
      (r.mode = .M2 ↔ r.addrBytes = 1 ∧ r.foldBits ≠ 0) ∧ (r.mode = .M3 ↔ r.addrBytes = 2 ∧ r.foldBits = 0))
    (by decide) h

/-! ## Acceptance -/

/-- An offered word is accepted in the state with the inputs taken. -/
theorem step_of_offers {s : State} {w : CmdWord} (h : s.offers w) : step s = acceptStep w s.sample := by
  obtain ⟨hrst, hidle, hcmd⟩ := h
  simp [step, engineStep, hrst, hidle, hcmd]

/-- Settles O13. -/
theorem stepRunsTheDecodedCommand : Obligations.StepRunsTheDecodedCommand := by
  intro s w i hoff hdec
  refine ⟨?_, rfl, rfl⟩
  rw [step_of_offers hoff, acceptStep, hdec]

/-- Under a record the checks answer in their order: the handle, the range, the length (60_exceptions.md R186). -/
theorem admitTransfer_zero {s : State} {r : Rec} {off : Offset} {start : Rec → State → State} (hr : s.record = some r) :
    admitTransfer off 0 start s = .next
      (if s.handle.hvalid = false then raise .errNoHandle s
       else if off.toNat ≤ reachOf r then complete .ok s else raise .errRange s) := by
  have hin : inRange r off 0 = true ↔ off.toNat ≤ reachOf r := by simpa using inRange_iff r off 0
  cases hv : s.handle.hvalid with
  | false => simp [admitTransfer, hv]
  | true =>
    by_cases hle : off.toNat ≤ reachOf r
    · simp [admitTransfer, hv, hr, hle, show inRange r off 0#16 = true from hin.2 hle]
    · simp [admitTransfer, hv, hr, hle, show inRange r off 0#16 = false from Bool.eq_false_iff.2 (mt hin.1 hle)]

/-- Settles O21: the handle is checked first, then the range, and what passes completes. -/
theorem zeroLengthTransferIsANoOp : Obligations.ZeroLengthTransferIsANoOp := by
  intro s r i off hi hr
  obtain ⟨start, hexec⟩ : ∃ start, exec i s = admitTransfer off 0 start s := by
    rcases hi with rfl | rfl
    · exact ⟨startWrite off 0, rfl⟩
    · exact ⟨startRead off 0, rfl⟩
  rw [hexec, admitTransfer_zero hr]
  refine ⟨fun hv hle => ?_, fun hv hgt => ⟨_, rfl, ?_⟩, fun hv => ⟨_, rfl, ?_⟩⟩
  · rw [if_neg (by simp [hv]), if_pos hle]; rfl
  · rw [if_neg (by simp [hv]), if_neg (by omega)]; rfl
  · rw [if_pos hv]; rfl

theorem pagePos_eq {d : BitVec 16} {r : Rec} (h : dispatch d = some r) (off : Offset) :
    pagePos r off = BitVec.ofNat 8 (off.toNat % pageOf r) := by
  rw [← pagePos_toNat h, BitVec.ofNat_toNat, BitVec.setWidth_eq]

theorem chunkSize_eq {d : BitVec 16} {r : Rec} (h : dispatch d = some r) (off rem : Offset) :
    chunkSize r (pagePos r off) rem = BitVec.ofNat 9 (min (pageOf r - off.toNat % pageOf r) rem.toNat) := by
  have hlt : (pagePos r off).toNat < pageOf r := by
    rw [pagePos_toNat h]; exact Nat.mod_lt _ (by have := pageOf_bounds h; omega)
  rw [← pagePos_toNat h, ← chunkSize_toNat h rem hlt, BitVec.ofNat_toNat, BitVec.setWidth_eq]

/-- Settles O22. -/
theorem writeStartsItsFirstChunk : Obligations.WriteStartsItsFirstChunk := by
  intro s r off len hv hr hne hin
  have hexec : exec (.write off len) s = .next (startWrite off len r s) := admitTransfer_of_admits ⟨hv, hr, hin, hne⟩ _
  rw [hexec, ← pagePos_eq (record_dispatch hr), ← chunkSize_eq (record_dispatch hr)]
  rfl

/-- Settles O23. -/
theorem readStartsItsDummyWrite : Obligations.ReadStartsItsDummyWrite := by
  intro s r off len hv hr hne hin
  exact admitTransfer_of_admits ⟨hv, hr, hin, hne⟩ (startRead off len)

/-! ## The operations in a record of events -/

@[simp] theorem opsOf_append (l m : List Event) : opsOf (l ++ m) = opsOf l ++ opsOf m := by
  induction l with
  | nil => rfl
  | cons e l ih => cases e <;> simp [opsOf, ih]

@[simp] theorem opsOf_issueEvents (o : TOp) (s : State) : opsOf (s.issueEvents o) = [o] := by
  unfold State.issueEvents
  split <;> rfl

theorem opsOf_issuing (s : State) (o : TOp) (x : State) :
    opsOf (s.issuing (x.issueEvents o)) = if s.outstanding = none then [o] else [] := by
  unfold State.issuing
  split <;> simp [opsOf]

/-! ## Answers -/

/-- Settles O26. -/
theorem failedOperationEndsTheCommand : Obligations.FailedOperationEndsTheCommand := by
  intro s o ⟨hrst, hfail⟩ hcon hrun hpend
  have hrep : transportReply s.pins o (s.sample.issue o).env = .failed (s.sample.env.afterFail o s.pins.leftOpen) := by
    rw [issue_env]; exact transportReply_fail hfail
  refine ⟨raise .errTransport (s.answered o (s.sample.env.afterFail o s.pins.leftOpen)),
    (step_of_drives ⟨hrst, hrun, hpend, hcon⟩).trans (settle_failed hrep), rfl, rfl, rfl, rfl, rfl, by simp, by simp, by simp,
    by simp, by simp, ?_⟩
  simp [opsOf_issuing, opsOf]

/-- A step nobody answers waits. -/
theorem transportReply_of_unanswered {s : State} {o : TOp} (h : s.unanswered) (hrun : s.phase ≠ .idle)
    (hpend : s.pendingOp = some o) : transportReply s.pins o s.sample.env = .waiting := by
  have hdev := sample_device_of_ne_idle hrun
  obtain ⟨-, ⟨hnone, hans⟩ | ⟨d, o', hd, hans, ho', hsilent⟩⟩ := h
  · rw [hnone] at hdev
    unfold transportReply
    rw [hans, hdev]; rfl
  · obtain rfl : o = o' := Option.some.inj (hpend.symm.trans ho')
    rw [hd] at hdev
    rcases ha : s.pins.answer with _ | ⟨v⟩ | _ <;> simp_all [transportReply]

/-- Settles O27. -/
theorem unansweredOperationWaits : Obligations.UnansweredOperationWaits := by
  intro s o hun hcon hrun hpend
  have hrep : transportReply s.pins o (s.sample.issue o).env = .waiting := by
    rw [issue_env]; exact transportReply_of_unanswered hun hrun hpend
  refine ⟨s.sample.issue o, (step_of_drives ⟨hun.1, hrun, hpend, hcon⟩).trans (settle_waiting hrep), by simp, by simp, by simp,
    by simp, issue_outstanding hpend, by simp, by simp, by simp, by simp, by simp, ?_⟩
  rw [issue_log, opsOf_append]
  exact congrArg _ (opsOf_issuing s o s.sample)

/-! ## Rules about every step -/

/-- Settles O32: by the kinds of step. -/
theorem busyExactlyOutsideIdle : Obligations.BusyExactlyOutsideIdle := by
  refine ⟨fun s t h hstep => ?_, fun s h hb => ?_, fun s => ?_, rfl⟩
  · cases stepTo_of_next hstep with
    | resets => simp [resetStep]
    | idles => simpa using h
    | completes => simp
    | startsWrite => simp
    | startsRead => simp
    | waits o => simpa using h
    | fails => simp
    | done o v e r drives =>
      rcases doneState_completion (s := s.answered o e) r v (by simpa using drives.running) with ⟨hp, hb, -, -⟩ | ⟨hp, hb, -, -⟩
      · have hrun := drives.running
        simp only [answered_busy] at hb
        simp [hb, hp, h, hrun]
      · simp [hp, hb]
  · simp [State.cmdReady, h.1 hb]
  · simp [State.cmdReady]

/-- Settles O33: by the kinds of step; only a completion writes `STATUS`, and it presents it. -/
theorem statusIsWrittenAtCompletionOnly : Obligations.StatusIsWrittenAtCompletionOnly := by
  refine ⟨fun s t hrst hstep => ?_, rfl, rfl⟩
  cases stepTo_of_next hstep with
  | resets rst => rw [hrst] at rst; cases rst
  | idles => exact .inl ⟨rfl, rfl⟩
  | completes => exact .inr ⟨rfl, rfl, rfl⟩
  | startsWrite => exact .inl ⟨rfl, rfl⟩
  | startsRead => exact .inl ⟨rfl, rfl⟩
  | waits => exact .inl ⟨by simp, by simp⟩
  | fails => exact .inr ⟨rfl, rfl, rfl⟩
  | done o v e r drives =>
    rcases doneState_completion (s := s.answered o e) r v (by simpa using drives.running) with
      ⟨-, -, hst, hrsp⟩ | ⟨hp, hb, hst, hrsp⟩
    · exact .inl ⟨by simpa using hrsp, by simpa using hst⟩
    · exact .inr ⟨by rw [hrsp, hst], hb, hp⟩

theorem rbufAt_congr {s t : State} (h : t.env.rbuf = s.env.rbuf) (i : Nat) : t.rbufAt i = s.rbufAt i := by
  unfold State.rbufAt; rw [h]

/-- The byte written to `RBUF` reads back, and no other byte changes. -/
theorem rbufAt_of_put {s t : State} {a : Nat} {v : Byte} (h : t.env.rbuf = Memory.put s.env.rbuf a v) (i : Nat) :
    t.rbufAt i = if i = a then v else s.rbufAt i := by
  unfold State.rbufAt
  rw [h]
  split
  · rename_i hi
    rw [hi, Memory.get?_put_same]; rfl
  · rename_i hi
    rw [Memory.get?_put_other _ _ hi]

/-- What an answer *done* leaves of the buffers: `RBUF` has the byte at `IDX` in `R_DATA`, all else is as it was. -/
theorem done_buffers {s : State} {o : TOp} {v : Byte} {e : Env} (r : Rec)
    (h : transportReply s.pins o s.sample.env = .done v e) :
    (doneState r v (s.answered o e)).env.wbuf = s.sample.env.wbuf ∧
    (doneState r v (s.answered o e)).env.rbuf =
      if s.phase = .rData then Memory.put s.sample.env.rbuf s.dp.idx.toNat v else s.sample.env.rbuf := by
  obtain ⟨dev, rfl, -⟩ := transportReply_done h
  rw [doneState_env, answered_phase]
  split <;> simp

/-- Settles O36: by the kinds of step; only an answer *done* in `R_DATA` stores a byte. -/
theorem engineStoresOnlyReceivedBytes : Obligations.EngineStoresOnlyReceivedBytes := by
  intro s t hstep i
  cases stepTo_of_next hstep with
  | resets => exact ⟨wbufAt_congr (by simp [resetStep]) i, .inl (rbufAt_congr (by simp [resetStep]) i)⟩
  | idles => exact ⟨rfl, .inl rfl⟩
  | completes => exact ⟨rfl, .inl rfl⟩
  | startsWrite => exact ⟨rfl, .inl rfl⟩
  | startsRead => exact ⟨rfl, .inl rfl⟩
  | waits => exact ⟨wbufAt_congr (by simp) i, .inl (rbufAt_congr (by simp) i)⟩
  | fails => exact ⟨wbufAt_congr (by simp) i, .inl (rbufAt_congr (by simp) i)⟩
  | done o v e r drives reply =>
    obtain ⟨hw, hr⟩ := done_buffers r reply
    refine ⟨wbufAt_congr hw i, ?_⟩
    by_cases hp : s.phase = .rData
    · rw [if_pos hp] at hr
      have hbyte := rbufAt_of_put hr i
      by_cases hi : i = s.dp.idx.toNat
      · rw [if_pos hi] at hbyte
        exact .inr ⟨drives.noReset, hp, hi, o, e, drives.pending, by rw [hbyte]; exact reply⟩
      · rw [if_neg hi] at hbyte
        exact .inl hbyte
    · rw [if_neg hp] at hr
      exact .inl (rbufAt_congr hr i)

/-! ## Consequences of the invariant -/

/-- Under a legal handle every command is answered a next state. -/
theorem exec_isNext {s : State} (h : s.handle.Legal) (i : Instr) : ∃ t, exec i s = .next t := by
  have htransfer : ∀ off len start, ∃ t, admitTransfer off len start s = .next t := by
    intro off len start
    rcases admitTransfer_cases off len start s with ⟨-, h'⟩ | ⟨hv, hr, -⟩ | ⟨_, -, -, -, h'⟩ | ⟨_, -, -, -, -, h'⟩ |
      ⟨_, -, -, -, -, h'⟩
    · exact ⟨_, h'⟩
    · have := h hv
      rw [show dispatch s.handle.density = none from hr] at this
      cases this
    all_goals exact ⟨_, h'⟩
  cases i with
  | createHandle b d =>
    rcases execCreateHandle_cases b d s with ⟨-, h'⟩ | ⟨_, -, h'⟩
    · exact ⟨_, h'⟩
    · exact ⟨_, h'⟩
  | write off len => exact htransfer off len _
  | read off len => exact htransfer off len _

theorem respond_begin_ne_outside (d : Device) (b : Byte) : d.respond (.beginSession b) ≠ .outside := by
  unfold Device.respond
  split
  · simp
  · simp only [Device.react]
    split <;> simp

theorem respond_writeByte_ne_outside {d : Device} {ph : Phase} (hfits : d.session.fits ph = true)
    (hph : ph.inReadSession = false) (a : Byte) : d.respond (.writeByte a) ≠ .outside := by
  unfold Device.respond
  split
  · simp
  · cases ph <;> cases hph <;> cases hd : d.session <;> simp_all [DevSession.fits, Device.react]

theorem respond_read_ne_outside {d : Device} {o : TOp} (hd : d.session = .reading) (ho : o = .readByteAck ∨ o = .readByteNak) :
    d.respond o ≠ .outside := by
  unfold Device.respond
  split
  · simp
  · simp [Device.react_read hd ho]

theorem respond_end_ne_outside {d : Device} (hd : d.session ≠ .idle) : d.respond .endSession ≠ .outside := by
  unfold Device.respond
  split
  · simp
  · cases hs : d.session <;> simp_all [Device.react]

/-- A device whose session fits the phase has a reaction to the phase's operation (log 13). -/
theorem respond_ne_outside {s : State} {o : TOp} {d : Device} (ho : s.Issues o)
    (hfits : s.phase.inSession = true → d.session.fits s.phase = true) : d.respond o ≠ .outside := by
  have hopen : s.phase.inSession = true → d.session ≠ .idle := fun hin hd => by simpa [hd, DevSession.fits] using hfits hin
  unfold State.Issues at ho
  cases hp : s.phase <;> simp only [hp] at ho hfits hopen
  case wBegin | rBeginW | rBeginR => exact ho ▸ respond_begin_ne_outside d _
  case wAhi | wAlo | wData | rAhi | rAlo => obtain ⟨a, rfl⟩ := ho; exact respond_writeByte_ne_outside (hfits rfl) rfl a
  case wEnd | rEndW | rEnd => exact ho ▸ respond_end_ne_outside (hopen rfl)
  case rData =>
    have hs : d.session = .reading := by
      have := hfits rfl
      cases hd : d.session <;> simp_all [DevSession.fits, Phase.inReadSession]
    exact respond_read_ne_outside hs (by rw [ho]; split <;> simp)

theorem transportReply_refused {p : Sample} {o : TOp} {e : Env} {x : Refusal} (h : transportReply p o e = .refused x) :
    ∃ d, e.device = some d ∧ d.respond o = .outside := by
  rcases transportReply_cases p o e with ⟨-, h'⟩ | ⟨_, -, -, h'⟩ | ⟨-, -, h'⟩ | ⟨_, -, -, -, h'⟩ | ⟨_, _, _, -, -, -, h'⟩ |
    ⟨d, -, hd, hr, -⟩
  case inr.inr.inr.inr.inr => exact ⟨d, hd, hr⟩
  all_goals rw [h'] at h; cases h

/-- Under the invariant the sequencer's step on a driven operation is a next state. -/
theorem driven_step_isNext {s : State} {o : TOp} (h : Inv s) (hd : s.Drives o) : ∃ t, step s = .next t := by
  have hrun := hd.running
  obtain ⟨-, r, hr, -⟩ := h.transfer hrun
  rw [step_of_drives hd]
  cases hrep : transportReply s.pins o (s.sample.issue o).env with
  | waiting => exact ⟨_, settle_waiting hrep⟩
  | failed e => exact ⟨_, settle_failed hrep⟩
  | done v e =>
    rw [settle_done hrep]
    exact ⟨_, onDone_eq (r := r) ((record_congr (by simp)).trans hr) v⟩
  | refused x =>
    obtain ⟨d, hdev, hout⟩ := transportReply_refused hrep
    rw [issue_env] at hdev
    exact absurd hout (respond_ne_outside (h.issues hd) fun hin => sample_fits h hrun hin hdev)

/-- Settles O42: the record is there while a command runs, the device expects the operation, and a `T.begin` finds a session open
only at a command's first operation. -/
theorem invariantStepIsSafe : Obligations.InvariantStepIsSafe := by
  intro s h
  rcases step_cases s with ⟨-, h'⟩ | ⟨-, -, -, h'⟩ | ⟨w, -, -, -, h'⟩ | ⟨hrst, hrun, -⟩
  · exact .inl ⟨_, h'⟩
  · exact .inl ⟨_, h'⟩
  · left
    rw [h', acceptStep]
    cases decode w with
    | error => exact ⟨_, rfl⟩
    | ok i => exact exec_isNext (s := s.sample.accept w) h.legalHandle i
  · rcases drives_or_refused hrst hrun with ⟨o, hd⟩ | ⟨href, -, hopen, hph⟩
    · exact .inl (driven_step_isNext h hd)
    · refine .inr ⟨href, hopen, ?_⟩
      rcases hph with hp | hp | hp
      · exact .inl hp
      · exact .inr hp
      · rw [h.betweenSessions hp] at hopen; cases hopen

/-- Settles O43: the invariant's cursors as unbounded integers. -/
theorem runningTransferStaysInRange : Obligations.RunningTransferStaysInRange := by
  intro s r h hr
  have hreach := reachOf_le (record_dispatch hr)
  have hpage := pageOf_bounds (record_dispatch hr)
  have htransfer : s.phase ≠ .idle → TransferInv r s := fun hrun => by
    obtain ⟨-, r', hr', ht⟩ := h.transfer hrun
    obtain rfl : r' = r := Option.some.inj (hr'.symm.trans hr)
    exact ht
  have hwrite : s.phase.isWrite = true → WriteInv r s := fun hw => (htransfer fun hp => by rw [hp] at hw; cases hw).write hw
  refine ⟨fun hw => ?_, fun hp => ?_, fun hp => ?_, fun hp => ?_⟩
  · have hi := hwrite hw
    obtain ⟨hpos, hlt, hchunk, hrem1, hchunk1⟩ := hi.range (record_dispatch hr)
    have hin := hi.inReach
    have hparts := hi.parts
    have hcur := hi.curOff
    refine ⟨?_, hreach, hrem1, hlt, ?_, hchunk1, ?_, ?_, ?_, ?_, ?_⟩ <;> omega
  · have hi := hwrite (by rw [hp]; rfl)
    obtain ⟨-, -, hchunk, -, -⟩ := hi.range (record_dispatch hr)
    have hparts := hi.parts
    have hk := hi.k
    rw [hp] at hk
    have hk' : s.dp.k.toNat < s.dp.chunk.toNat := hk
    omega
  · have hi := (htransfer (by simp [hp])).read (by rw [hp]; rfl)
    have hleft := hi.left
    rw [hp] at hleft
    obtain ⟨hne, hidx⟩ : s.dp.rem ≠ 0 ∧ s.dp.idx = 0 := hleft
    have hin := hi.inReach
    have hparts := hi.parts
    rw [hidx] at hparts
    rw [hi.curOff]
    exact ⟨by simp at hparts; omega, hreach, offset_pos hne⟩
  · have ht := htransfer (by simp [hp])
    have hrem := offset_pos (ht.left_of_rData hp)
    have hparts := (ht.read (by rw [hp]; rfl)).parts
    omega

end Sys2Proof.Machine
end

section
/-! SUPPORT. The sequencer's tables of 10_state.md R21 and R22. -/

namespace Sys2Proof.Machine

/-! ## The sequencer's tables, row by row -/

/-- What a step that drives `o` issues is what the phase's operation `x` asks for. -/
theorem issuing_of_nextOp {s : State} {o x : TOp} (hpend : s.pendingOp = some o) (hx : s.sample.nextOp = some x) :
    s.issuing (s.sample.issueEvents o) = s.issuing (s.sample.issueEvents x) := by
  unfold State.issuing
  split
  · rename_i hnone
    obtain rfl : x = o := Option.some.inj ((hx.symm.trans (pendingOp_of_none hnone).symm).trans hpend)
    rfl
  · rfl

/-- Outside `W_DATA` the answered step has issued the phase's operation and nothing else. -/
theorem answered_log_of_nextOp {s : State} {o x : TOp} (hpend : s.pendingOp = some o) (hw : s.phase ≠ .wData)
    (hx : s.sample.nextOp = some x) (e : Env) : (s.answered o e).log = s.log ++ s.issuing [.op x] := by
  rw [answered_log, issuing_of_nextOp hpend hx, issueEvents_of_ne_wData (s := s.sample) hw]

/-- How `BUSY`, `STATUS` and the response stand after a step answered *done* (10_state.md R18, R23). -/
theorem answeredDone_completion {s : State} (hrun : s.phase ≠ .idle) (r : Rec) (v : Byte) (o : TOp) (e : Env) :
    ((doneState r v (s.answered o e)).phase ≠ .idle → (doneState r v (s.answered o e)).busy = s.busy ∧
      (doneState r v (s.answered o e)).status = s.status ∧ (doneState r v (s.answered o e)).rsp = none) ∧
    ((doneState r v (s.answered o e)).phase = .idle → (doneState r v (s.answered o e)).busy = false ∧
      (doneState r v (s.answered o e)).status = .ok ∧ (doneState r v (s.answered o e)).rsp = some .ok) := by
  rcases doneState_completion (s := s.answered o e) r v (by simpa using hrun) with ⟨hp, hb, hst, hrsp⟩ | ⟨hp, hb, hst, hrsp⟩
  · exact ⟨fun _ => ⟨by simpa using hb, by simpa using hst, by simpa using hrsp⟩, fun h => absurd h hp⟩
  · exact ⟨fun h => absurd hp h, fun _ => ⟨hb, hst, hrsp⟩⟩

/-- Settles O24, row by row. -/
theorem writeStepsTable : Obligations.WriteStepsTable := by
  intro s r o v e ⟨hrst, hpend, hrep⟩ hcon hr hw
  have hrun : s.phase ≠ .idle := fun hp => by rw [hp] at hw; cases hw
  have hnotRead : s.phase ≠ .rData := fun hp => by rw [hp] at hw; cases hw
  have hbufs := done_buffers r hrep
  rw [if_neg hnotRead] at hbufs
  have hbuf : (doneState r v (s.answered o e)).buf = (s.answered o e).buf := by
    rw [doneState_buf, answered_phase, if_neg hnotRead]
  rw [answered_buf] at hbuf
  have hlog : ∀ {x}, s.phase ≠ .wData → s.sample.nextOp = some x → (s.answered o e).log = s.log ++ s.issuing [.op x] :=
    fun hne hx => answered_log_of_nextOp hpend hne hx e
  obtain ⟨hgoing, hended⟩ := answeredDone_completion hrun r v o e
  refine ⟨_, step_of_answeredDone ⟨hrst, hrun, hpend, hcon⟩ hrep hr, by simp, by simp, by simp, hbufs.1, hbufs.2,
    by simp [doneState_env, hnotRead], fun hp => ?_, fun hp => ?_, fun hp => ?_, fun hp => ?_, fun hp hleft => ?_,
    fun hp hlast => ?_, ?_, fun hp ho => ?_, fun hrest => ?_, hgoing, hended⟩
  · rw [doneState_wBegin (s := s.answered o e) (by simpa using hp)]
    exact ⟨rfl, by simp, hlog (by simp [hp]) (by simp [State.nextOp, hp])⟩
  · rw [doneState_wAhi (s := s.answered o e) (by simpa using hp)]
    exact ⟨rfl, by simp, hlog (by simp [hp]) (by simp [State.nextOp, hp])⟩
  · rw [doneState_wAlo (s := s.answered o e) (by simpa using hp)]
    refine ⟨rfl, by simp, hlog (by simp [hp]) (by simp [State.nextOp, hp]), fun hinv => ?_⟩
    obtain ⟨-, r', hr', ht⟩ := hinv.transfer hrun
    have hi := ht.write hw
    have hk := hi.k
    rw [hp] at hk
    obtain ⟨-, -, -, -, hchunk1⟩ := hi.range (record_dispatch hr')
    exact ⟨by simpa using hk, by simpa using Nat.lt_of_succ_le hchunk1⟩
  · have hx : s.sample.nextOp = some (.writeByte (s.sample.wbufAt (s.dp.idx + s.dp.k.setWidth 16).toNat)) := by
      simp [State.nextOp, hp]
    rw [doneState_wData (s := s.answered o e) (by simpa using hp)]
    refine ⟨by simp, by simp, _, rfl, ?_⟩
    dsimp only
    rw [answered_log, issuing_of_nextOp hpend hx, issueEvents_of_wData (s := s.sample) hp]
    rfl
  · rw [doneState_wEnd (s := s.answered o e) (by simpa using hp), endChunk_of_left (by simpa using hleft)]
    refine ⟨rfl, hlog (by simp [hp]) (by simp [State.nextOp, hp]), by simp, by simp, by simp, rfl,
      pagePos_eq (record_dispatch hr) _, chunkSize_eq (record_dispatch hr) _ _, ?_⟩
    rw [← base_congr (answered_handle s o e)]; rfl
  · rw [doneState_wEnd (s := s.answered o e) (by simpa using hp), endChunk_of_last (by simpa using hlast)]
    refine ⟨rfl, ?_, by simp [hlast]⟩
    rw [complete_log, advanceChunk_log, hlog (x := .endSession) (by simp [hp]) (by simp [State.nextOp, hp])]
  · rw [hbuf]; split <;> rfl
  · rw [hbuf, if_pos ⟨hp, ho⟩]; exact ⟨rfl, rfl⟩
  · rw [hbuf, if_neg (by tauto)]; exact ⟨rfl, rfl⟩

/-- Settles O25, row by row. -/
theorem readStepsTable : Obligations.ReadStepsTable := by
  intro s r o v e ⟨hrst, hpend, hrep⟩ hcon hr hrun hw
  have hnotWrite : s.phase ≠ .wData := fun hp => by rw [hp] at hw; cases hw
  obtain ⟨hwbuf, hrbuf⟩ := done_buffers r hrep
  have hbuf : (s.answered o e).buf = { s.buf with re := false, we := false } := by
    rw [answered_buf, if_neg (fun h => hnotWrite h.1)]
  have hlog : ∀ {x}, s.sample.nextOp = some x → (s.answered o e).log = s.log ++ s.issuing [.op x] :=
    fun hx => answered_log_of_nextOp hpend hnotWrite hx e
  obtain ⟨hgoing, hended⟩ := answeredDone_completion hrun r v o e
  refine ⟨_, step_of_answeredDone ⟨hrst, hrun, hpend, hcon⟩ hrep hr, by simp, by simp, by simp, hwbuf, ?_,
    fun hp => ⟨?_, ?_⟩, fun hp => ?_, fun hp => ?_, fun hp => ?_, fun hp => ?_, fun hp => ?_, fun hp => ?_, fun hp => ?_, ?_,
    fun hp => ?_, fun hp => ?_, hgoing, hended⟩
  · rw [doneState_env]; split <;> rfl
  · rw [hrbuf, if_neg hp]
  · cases hph : s.phase <;> simp_all [doneState, Phase.isWrite]
  · rw [doneState_rBeginW (s := s.answered o e) (by simpa using hp)]
    exact ⟨rfl, hlog (by simp [State.nextOp, hp])⟩
  · rw [doneState_rAhi (s := s.answered o e) (by simpa using hp)]
    exact ⟨rfl, hlog (by simp [State.nextOp, hp])⟩
  · rw [doneState_rAlo (s := s.answered o e) (by simpa using hp)]
    exact ⟨rfl, hlog (by simp [State.nextOp, hp])⟩
  · rw [doneState_rEndW (s := s.answered o e) (by simpa using hp)]
    exact ⟨rfl, hlog (by simp [State.nextOp, hp])⟩
  · rw [doneState_rBeginR (s := s.answered o e) (by simpa using hp)]
    exact ⟨rfl, hlog (by simp [State.nextOp, hp])⟩
  · rw [if_pos hp] at hrbuf
    have hbyte := rbufAt_of_put hrbuf
    refine ⟨?_, ?_, ?_, ?_, fun i hi => ?_⟩
    · rw [doneState_rData (s := s.answered o e) (by simpa using hp)]; simp
    · rw [doneState_rData (s := s.answered o e) (by simpa using hp)]; simp
    · rw [doneState_rData (s := s.answered o e) (by simpa using hp)]
      show (s.answered o e).log ++ [.rbufWrite (s.answered o e).dp.idx v] = _
      rw [hlog (by simp [State.nextOp, hp]; rfl), answered_dp]
      rfl
    · rw [hbyte, if_pos rfl]
    · rw [hbyte, if_neg hi]
  · rw [doneState_rEnd (s := s.answered o e) (by simpa using hp)]
    refine ⟨rfl, ?_⟩
    rw [complete_log, hlog (x := .endSession) (by simp [State.nextOp, hp])]
  · rw [doneState_buf, hbuf]; split <;> rfl
  · rw [doneState_buf, answered_phase, if_pos hp, answered_dp]; exact ⟨rfl, rfl, rfl⟩
  · rw [doneState_buf, answered_phase, if_neg hp, hbuf]; exact ⟨rfl, rfl⟩

end Sys2Proof.Machine
end

section
/-! SUPPORT. Runs of a command on an oracle transport (10_state.md R26): the sequencer, whatever the silent steps, follows the
answers one by one. -/

namespace Sys2Proof.Machine

/-! ## A command driven by its answers alone -/

/-- The record and the bus session once the operation `o` has been issued and done. -/
def State.opDone (o : TOp) (a : State) : State :=
  { a with log := a.log ++ a.issueEvents o, env := { a.env with sessionOpen := sessionAfter o a.env.sessionOpen } }

@[simp] theorem opDone_handle (o : TOp) (a : State) : (a.opDone o).handle = a.handle := rfl
@[simp] theorem opDone_latch (o : TOp) (a : State) : (a.opDone o).latch = a.latch := rfl
@[simp] theorem opDone_dp (o : TOp) (a : State) : (a.opDone o).dp = a.dp := rfl
@[simp] theorem opDone_phase (o : TOp) (a : State) : (a.opDone o).phase = a.phase := rfl
@[simp] theorem opDone_log (o : TOp) (a : State) : (a.opDone o).log = a.log ++ a.issueEvents o := rfl
@[simp] theorem opDone_env (o : TOp) (a : State) :
    (a.opDone o).env = { a.env with sessionOpen := sessionAfter o a.env.sessionOpen } := rfl

/-- The phase's operation issued and answered *done* with `v` at once: no input is taken, and the transport is the oracle's. -/
def answerOp (r : Rec) (v : Byte) (a : State) : State :=
  match a.nextOp with
  | none => a
  | some o => doneState r v (a.opDone o)

/-- The operations of a command answered *done* with a list of bytes. -/
def answerAll (r : Rec) : List Byte → State → State
  | [], a => a
  | v :: vs, a => answerAll r vs (answerOp r v a)

theorem answerOp_of_nextOp {a : State} {o : TOp} (h : a.nextOp = some o) (r : Rec) (v : Byte) :
    answerOp r v a = doneState r v (a.opDone o) := by
  simp [answerOp, h]

theorem exists_nextOp {a : State} (h : a.phase ≠ .idle) : ∃ o, a.nextOp = some o := Option.isSome_iff_exists.1 (nextOp_isSome h)

theorem nextOp_of_idle {a : State} (h : a.phase = .idle) : a.nextOp = none := by simp [State.nextOp, h]

theorem answerOp_of_idle {a : State} (h : a.phase = .idle) (r : Rec) (v : Byte) : answerOp r v a = a := by
  simp [answerOp, nextOp_of_idle h]

theorem answerAll_of_idle {a : State} (h : a.phase = .idle) (r : Rec) (vs : List Byte) : answerAll r vs a = a := by
  induction vs with
  | nil => rfl
  | cons v vs ih => rw [answerAll, answerOp_of_idle h, ih]

theorem answerAll_append (r : Rec) (vs ws : List Byte) (a : State) :
    answerAll r (vs ++ ws) a = answerAll r ws (answerAll r vs a) := by
  induction vs generalizing a with
  | nil => rfl
  | cons v vs ih => exact ih _

@[simp] theorem answerOp_handle (r : Rec) (v : Byte) (a : State) : (answerOp r v a).handle = a.handle := by
  unfold answerOp; split <;> simp
@[simp] theorem answerOp_latch (r : Rec) (v : Byte) (a : State) : (answerOp r v a).latch = a.latch := by
  unfold answerOp; split <;> simp

/-- Of the environment an answer changes the session, and `RBUF` in `R_DATA`. -/
theorem answerOp_env (r : Rec) (v : Byte) (a : State) : (answerOp r v a).env =
    { a.env with
      sessionOpen := (answerOp r v a).env.sessionOpen
      rbuf := if a.phase = .rData then Memory.put a.env.rbuf a.dp.idx.toNat v else a.env.rbuf } := by
  cases hn : a.nextOp with
  | none =>
    have hp : a.phase = .idle := by_contra fun hp => by simpa [hn] using nextOp_isSome hp
    rw [answerOp_of_idle hp, if_neg (by simp [hp])]
  | some o =>
    rw [answerOp_of_nextOp hn, doneState_env]
    by_cases hp : a.phase = .rData <;> simp [hp]

@[simp] theorem answerAll_handle (r : Rec) (vs : List Byte) (a : State) : (answerAll r vs a).handle = a.handle := by
  induction vs generalizing a with
  | nil => rfl
  | cons v vs ih => rw [answerAll, ih, answerOp_handle]
@[simp] theorem answerAll_latch (r : Rec) (vs : List Byte) (a : State) : (answerAll r vs a).latch = a.latch := by
  induction vs generalizing a with
  | nil => rfl
  | cons v vs ih => rw [answerAll, ih, answerOp_latch]

theorem answerAll_env (r : Rec) (vs : List Byte) (a : State) : (answerAll r vs a).env =
    { a.env with
      sessionOpen := (answerAll r vs a).env.sessionOpen
      rbuf := (answerAll r vs a).env.rbuf } := by
  induction vs generalizing a with
  | nil => rfl
  | cons v vs ih => rw [answerAll, ih, answerOp_env]

/-! ## The record of a driven command -/

/-- An answer *done* adds to the record, and adds no operation. -/
theorem doneState_log (r : Rec) (v : Byte) (s : State) :
    ∃ events, (doneState r v s).log = s.log ++ events ∧ opsOf events = [] := by
  have hnil : ∃ events : List Event, s.log = s.log ++ events ∧ opsOf events = [] := ⟨[], by simp, rfl⟩
  unfold doneState
  cases hp : s.phase
  case wEnd =>
    unfold endChunk
    dsimp only
    split
    · exact ⟨[.response .ok], rfl, rfl⟩
    · exact hnil
  case rData => exact ⟨[.rbufWrite s.dp.idx v], rfl, rfl⟩
  case rEnd => exact ⟨[.response .ok], rfl, rfl⟩
  all_goals exact hnil

/-- What an answered operation adds to the record: its issue first, that operation alone. -/
theorem answerOp_log {a : State} {o : TOp} (h : a.nextOp = some o) (r : Rec) (v : Byte) :
    ∃ events, (answerOp r v a).log = a.log ++ a.issueEvents o ++ events ∧ opsOf events = [] := by
  rw [answerOp_of_nextOp h]
  exact doneState_log r v _

/-- The record grows, by one operation an answer while the command runs, and by no more ever. -/
theorem answerAll_log (r : Rec) (vs : List Byte) (a : State) :
    ∃ events, (answerAll r vs a).log = a.log ++ events ∧ (opsOf events).length ≤ vs.length ∧
      ((answerAll r vs a).phase ≠ .idle → (opsOf events).length = vs.length) := by
  induction vs generalizing a with
  | nil => exact ⟨[], by simp [answerAll], by simp [opsOf], fun _ => rfl⟩
  | cons v vs ih =>
    by_cases hp : a.phase = .idle
    · rw [answerAll_of_idle hp]
      exact ⟨[], by simp, by simp [opsOf], fun hrun => absurd hp hrun⟩
    · obtain ⟨o, ho⟩ := exists_nextOp hp
      obtain ⟨events, hlog, hops⟩ := answerOp_log ho r v
      obtain ⟨later, hlater, hle, heq⟩ := ih (answerOp r v a)
      refine ⟨a.issueEvents o ++ events ++ later, ?_, ?_, fun hrun => ?_⟩
      · rw [answerAll, hlater, hlog]; simp
      · simp [hops]; omega
      · simp [hops, heq hrun, Nat.add_comm]

/-! ## The sequencer follows its answers -/

/-- What an answer-driven command needs: the record, no device attached, and the phase's session on the bus. -/
structure Ready (r : Rec) (a : State) : Prop where
  record : a.record = some r
  noDevice : a.env.device = none
  session : a.env.sessionOpen = a.phase.inSession

/-- `s` is a state of a run whose answers so far have led to `a`: its operation may be on the port already. -/
structure Tracks (a s : State) : Prop where
  handle : s.handle = a.handle
  latch : s.latch = a.latch
  dp : s.dp = a.dp
  phase : s.phase = a.phase
  env : s.env = { a.env with inputs := s.env.inputs }
  port : (s.outstanding = none ∧ s.log = a.log) ∨
    ∃ o, a.nextOp = some o ∧ s.outstanding = some o ∧ s.log = a.log ++ a.issueEvents o

theorem Tracks.refl {s : State} (h : s.outstanding = none) : Tracks s s := ⟨rfl, rfl, rfl, rfl, rfl, .inl ⟨h, rfl⟩⟩

theorem nextOp_eq_of_wbuf {s t : State} (hd : t.dp = s.dp) (hp : t.phase = s.phase) (hw : t.env.wbuf = s.env.wbuf) :
    t.nextOp = s.nextOp := by
  unfold State.nextOp
  rw [hp, hd, wbufAt_congr hw]

theorem issueEvents_eq_of_wbuf {s t : State} (hd : t.dp = s.dp) (hp : t.phase = s.phase) (hw : t.env.wbuf = s.env.wbuf)
    (o : TOp) : t.issueEvents o = s.issueEvents o := by
  unfold State.issueEvents
  rw [hp, hd, wbufAt_congr hw]

/-- A sample that leaves the command alone takes itself off the list and changes nothing else outside the engine. -/
theorem sample_env_of_quiet {s : State} (hrun : s.phase ≠ .idle) (hdev : s.env.device = none) (hw : s.pins.wbuf = [])
    (hr : s.pins.rbuf = []) : s.sample.env = { s.env with inputs := s.env.inputs.tail } := by
  simp [State.sample, hw, hr, restored_of_ne_idle hrun, hdev, Memory.putAll]

section Tracking
variable {r : Rec} {a s : State} {o : TOp}

theorem Tracks.running (ht : Tracks a s) (ho : a.nextOp = some o) : s.phase ≠ .idle := fun hp => by
  rw [nextOp_of_idle (ht.phase ▸ hp)] at ho; cases ho

theorem Tracks.sample_env (ht : Tracks a s) (hready : Ready r a) (ho : a.nextOp = some o) (hw : s.pins.wbuf = [])
    (hr : s.pins.rbuf = []) : s.sample.env = { a.env with inputs := s.env.inputs.tail } := by
  have hdev : s.env.device = none := by rw [ht.env]; exact hready.noDevice
  rw [sample_env_of_quiet (ht.running ho) hdev hw hr]
  conv_lhs => rw [ht.env]

/-- The run's step drives the operation the answers have led to. -/
theorem Tracks.drives (ht : Tracks a s) (hready : Ready r a) (ho : a.nextOp = some o) (hrst : s.pins.rst = false)
    (hw : s.pins.wbuf = []) (hr : s.pins.rbuf = []) : s.Drives o where
  noReset := hrst
  running := ht.running ho
  pending := by
    rcases ht.port with ⟨hnone, -⟩ | ⟨o', ho', hsome, -⟩
    · rw [pendingOp_of_none hnone, ← ho]
      exact nextOp_eq_of_wbuf (t := s.sample) ht.dp ht.phase (by rw [ht.sample_env hready ho hw hr])
    · rw [pendingOp_of_some hsome, ← ho, ho']
  contract := fun _ hph => by
    rw [ht.env]
    show a.env.sessionOpen = false
    rw [hready.session, ← ht.phase]
    rcases hph with hp | hp | hp <;> rw [hp] <;> rfl

/-- Issued now or before, the operation is in the record once. -/
theorem Tracks.issued_log (ht : Tracks a s) (hready : Ready r a) (ho : a.nextOp = some o) (hw : s.pins.wbuf = [])
    (hr : s.pins.rbuf = []) : s.log ++ s.issuing (s.sample.issueEvents o) = a.log ++ a.issueEvents o := by
  rcases ht.port with ⟨hnone, hlog⟩ | ⟨o', ho', hsome, hlog⟩
  · rw [hlog, State.issuing, if_pos hnone]
    exact congrArg _ (issueEvents_eq_of_wbuf (t := s.sample) ht.dp ht.phase (by rw [ht.sample_env hready ho hw hr]) o)
  · obtain rfl : o' = o := Option.some.inj (ho'.symm.trans ho)
    rw [hlog, State.issuing, if_neg (by simp [hsome]), List.append_nil]

/-- A silent step: the run waits where it is. -/
theorem Tracks.step_silent (ht : Tracks a s) (hready : Ready r a) (ho : a.nextOp = some o) (hp : s.pins.harmless)
    (hans : s.pins.answer = none) : ∃ t, step s = .next t ∧ Tracks a t ∧ t.env.inputs = s.env.inputs.tail := by
  obtain ⟨hrst, -, hw, hr⟩ := hp
  have hd := ht.drives hready ho hrst hw hr
  have henv := ht.sample_env hready ho hw hr
  have hrep : transportReply s.pins o (s.sample.issue o).env = .waiting := by
    rw [issue_env, henv]
    unfold transportReply
    rw [hans, hready.noDevice]
  refine ⟨s.sample.issue o, (step_of_drives hd).trans (settle_waiting hrep), ?_, by simp⟩
  exact
    { handle := by simpa using ht.handle
      latch := by simpa using ht.latch
      dp := by simpa using ht.dp
      phase := by simpa using ht.phase
      env := by rw [issue_env, henv]
      port := .inr ⟨o, ho, issue_outstanding hd.pending,
        (issue_log o s.sample).trans (ht.issued_log hready ho hw hr)⟩ }

/-- What an answer *done* makes of the registers and the record depends on these alone. -/
theorem doneState_congr {x y : State} (v : Byte) (hh : x.handle = y.handle) (hd : x.dp = y.dp) (hp : x.phase = y.phase)
    (hl : x.log = y.log) : (doneState r v x).dp = (doneState r v y).dp ∧
      (doneState r v x).phase = (doneState r v y).phase ∧ (doneState r v x).log = (doneState r v y).log := by
  have hb : (advanceChunk x).base = (advanceChunk y).base := base_congr hh
  unfold doneState
  rw [hp]
  cases hph : y.phase <;> simp only [hd, hl, hp, hph]
  case wEnd =>
    by_cases hlast : y.dp.rem - y.dp.chunk.setWidth 16 = 0
    · rw [endChunk_of_last hlast, endChunk_of_last (hd ▸ hlast)]; simp [hd, hl]
    · rw [endChunk_of_left hlast, endChunk_of_left (hd ▸ hlast)]; simp [hd, hl, hb]
  case rData => simp [hd, hl]
  case rEnd => simp [hd, hl]
  all_goals exact ⟨trivial, trivial, trivial⟩

/-- A step answered *done*: the run follows. -/
theorem Tracks.step_done (ht : Tracks a s) (hready : Ready r a) (ho : a.nextOp = some o) (hp : s.pins.harmless) {v : Byte}
    (hans : s.pins.answer = some (.done v)) :
    ∃ t, step s = .next t ∧ Tracks (answerOp r v a) t ∧ t.env.inputs = s.env.inputs.tail ∧
      (t.phase = .idle → t.busy = false ∧ t.status = .ok ∧ t.rsp = some .ok) := by
  obtain ⟨hrst, -, hw, hr⟩ := hp
  have hd := ht.drives hready ho hrst hw hr
  have henv := ht.sample_env hready ho hw hr
  have hrep : transportReply s.pins o s.sample.env = .done v (s.sample.env.afterDone o none) := by
    rw [henv]
    exact transportReply_oracle_done hans hready.noDevice
  have hlog : (s.answered o (s.sample.env.afterDone o none)).log = a.log ++ a.issueEvents o :=
    (answered_log s o _).trans (ht.issued_log hready ho hw hr)
  obtain ⟨hdp, hph, hlg⟩ := doneState_congr (r := r) (x := s.answered o (s.sample.env.afterDone o none))
    (y := a.opDone o) v
    ((answered_handle s o _).trans ht.handle) ((answered_dp s o _).trans ht.dp) ((answered_phase s o _).trans ht.phase) hlog
  rw [← answerOp_of_nextOp ho] at hdp hph hlg
  have hdoneEnv : (doneState r v (s.answered o (s.sample.env.afterDone o none))).env =
      { (answerOp r v a).env with inputs := s.env.inputs.tail } := by
    rw [doneState_env, answerOp_of_nextOp ho, doneState_env, answered_env, answered_phase, answered_dp, henv, ht.phase, ht.dp]
    by_cases hp : a.phase = .rData <;> simp [hp, Env.afterDone, hready.noDevice]
  refine ⟨_, step_of_answeredDone hd hrep ((record_congr ht.handle).trans hready.record), ?_, by rw [hdoneEnv],
    (answeredDone_completion hd.running r v o _).2⟩
  exact
    { handle := by simpa using ht.handle
      latch := by simpa using ht.latch
      dp := hdp
      phase := hph
      env := by rw [hdoneEnv]
      port := .inl ⟨by simp, hlg⟩ }

/-- A step answered *fail*: the command ends there (10_state.md R24). -/
theorem Tracks.step_fail (ht : Tracks a s) (hready : Ready r a) (ho : a.nextOp = some o) (hrst : s.pins.rst = false)
    (hans : s.pins.answer = some .fail) (hw : s.pins.wbuf = []) (hr : s.pins.rbuf = []) :
    ∃ t, step s = .next t ∧ t.log = a.log ++ a.issueEvents o ++ [.response .errTransport] ∧
      t.phase = .idle ∧ t.busy = false ∧ t.status = .errTransport ∧ t.rsp = some .errTransport ∧ t.outstanding = none ∧
      t.handle = a.handle ∧ t.latch = a.latch ∧ t.env.rbuf = a.env.rbuf ∧ t.env.wbuf = a.env.wbuf ∧
      t.env.inputs = s.env.inputs.tail := by
  have hd := ht.drives hready ho hrst hw hr
  have henv := ht.sample_env hready ho hw hr
  have hrep : transportReply s.pins o (s.sample.issue o).env = .failed (s.sample.env.afterFail o s.pins.leftOpen) := by
    rw [issue_env]; exact transportReply_fail hans
  refine ⟨raise .errTransport (s.answered o (s.sample.env.afterFail o s.pins.leftOpen)),
    (step_of_drives hd).trans (settle_failed hrep), ?_, rfl, rfl, rfl, rfl, rfl, ?_, ?_, ?_, ?_, ?_⟩
  · rw [raise_log, answered_log, ht.issued_log hready ho hw hr]
  · simpa using ht.handle
  · simpa using ht.latch
  · simp only [raise_env, answered_env, afterFail_rbuf, henv]
  · simp only [raise_env, answered_env, afterFail_wbuf, henv]
  · simp

end Tracking

/-- Answers keep what the run needs. -/
theorem Ready.answerOp {r : Rec} {a : State} (h : Ready r a) (v : Byte) : Ready r (answerOp r v a) where
  record := (record_congr (answerOp_handle r v a)).trans h.record
  noDevice := by rw [answerOp_env]; exact h.noDevice
  session := by
    cases ho : a.nextOp with
    | none => simpa [Machine.answerOp, ho] using h.session
    | some o =>
      rw [answerOp_of_nextOp ho]
      obtain ⟨hin, hout⟩ := sessionAfter_doneState (r := r) (isOpen := a.env.sessionOpen)
        (s := a.opDone o)
        v (issues_of_nextOp (s := a) ho) (fun hin => h.session.trans hin)
      have henv : ∀ x : State, (doneState r v x).env.sessionOpen = x.env.sessionOpen := fun x => by
        rw [doneState_env]; split <;> rfl
      rw [henv]
      cases hph : (doneState r v (a.opDone o)).phase.inSession with
      | true => exact hin hph
      | false => exact hout hph

theorem Ready.answerAll {r : Rec} {a : State} (h : Ready r a) (vs : List Byte) : Ready r (answerAll r vs a) := by
  induction vs generalizing a with
  | nil => exact h
  | cons v vs ih => exact ih (h.answerOp v)

theorem pins_of_inputs {s : State} {p : Sample} {rest : List Sample} (h : s.env.inputs = p :: rest) : s.pins = p := by
  simp [State.pins, h]

theorem runFor_succ {s t : State} (h : step s = .next t) (n : Nat) : runFor (n + 1) s = runFor n t := by
  simp [runFor, h]

theorem runFor_snoc {n : Nat} {s t u : State} (h : runFor n s = .next t) (hstep : step t = .next u) :
    runFor (n + 1) s = .next u := by
  induction n generalizing s with
  | zero =>
    obtain rfl : s = t := Host.Outcome.next.inj h
    exact runFor_succ hstep 0
  | succ n ih =>
    rw [runFor] at h ⊢
    cases hs : step s with
    | next s' => rw [hs] at h; exact ih h
    | fault => rw [hs] at h; cases h
    | refused => rw [hs] at h; cases h

/-- While the command goes on, harmless samples lead where their answers do. -/
theorem runFor_tracks {r : Rec} {a s : State} {ps rest : List Sample} (ht : Tracks a s) (hready : Ready r a)
    (hin : s.env.inputs = ps ++ rest) (hps : ∀ p ∈ ps, p.harmless) (hrun : (answerAll r (answersOf ps) a).phase ≠ .idle) :
    ∃ u, runFor ps.length s = .next u ∧ Tracks (answerAll r (answersOf ps) a) u ∧ u.env.inputs = rest := by
  induction ps generalizing a s with
  | nil => exact ⟨s, rfl, ht, hin⟩
  | cons p ps ih =>
    have hpins := pins_of_inputs (s := s) (p := p) (rest := ps ++ rest) hin
    have hp := hps p (by simp)
    have hps' : ∀ q ∈ ps, q.harmless := fun q hq => hps q (by simp [hq])
    have hrun0 : a.phase ≠ .idle := fun h => hrun (by rw [answerAll_of_idle h]; exact h)
    obtain ⟨o, ho⟩ := exists_nextOp hrun0
    cases hans : p.answer with
    | none =>
      obtain ⟨t, hstep, ht', hin'⟩ := ht.step_silent hready ho (hpins ▸ hp) (hpins ▸ hans)
      rw [answersOf_cons_silent hans] at hrun ⊢
      rw [List.length_cons, runFor_succ hstep]
      exact ih ht' hready (by rw [hin', hin]; rfl) hps' hrun
    | some ans =>
      cases ans with
      | fail => exact absurd hans hp.2.1
      | done v =>
        obtain ⟨t, hstep, ht', hin', -⟩ := ht.step_done hready ho (hpins ▸ hp) (hpins ▸ hans)
        rw [answersOf_cons_done hans] at hrun ⊢
        rw [List.length_cons, runFor_succ hstep]
        exact ih ht' (hready.answerOp v) (by rw [hin', hin]; rfl) hps' hrun

/-- Where the answers complete the command, the run completes it, in the step of the last answer it needs. -/
theorem runFor_completes {r : Rec} {a s : State} {ps rest : List Sample} (ht : Tracks a s) (hready : Ready r a)
    (hin : s.env.inputs = ps ++ rest) (hps : ∀ p ∈ ps, p.harmless) (hrun : a.phase ≠ .idle)
    (hend : (answerAll r (answersOf ps) a).phase = .idle) :
    ∃ u n, n ≤ ps.length ∧ runFor n s = .next u ∧ Tracks (answerAll r (answersOf ps) a) u ∧
      u.env.inputs = s.env.inputs.drop n ∧ u.busy = false ∧ u.status = .ok ∧ u.rsp = some .ok := by
  induction ps generalizing a s with
  | nil => exact absurd hend hrun
  | cons p ps ih =>
    have hpins := pins_of_inputs (s := s) (p := p) (rest := ps ++ rest) hin
    have hp := hps p (by simp)
    have hps' : ∀ q ∈ ps, q.harmless := fun q hq => hps q (by simp [hq])
    have hdrop : ∀ n, s.env.inputs.tail.drop n = s.env.inputs.drop (n + 1) := fun n => by simp [List.drop_tail]
    obtain ⟨o, ho⟩ := exists_nextOp hrun
    cases hans : p.answer with
    | none =>
      obtain ⟨t, hstep, ht', hin'⟩ := ht.step_silent hready ho (hpins ▸ hp) (hpins ▸ hans)
      rw [answersOf_cons_silent hans] at hend ⊢
      obtain ⟨u, n, hn, hu, htu, hinu, hfin⟩ := ih ht' hready (by rw [hin', hin]; rfl) hps' hrun hend
      exact ⟨u, n + 1, by simpa using hn, (runFor_succ hstep n).trans hu, htu, by rw [hinu, hin', hdrop], hfin⟩
    | some ans =>
      cases ans with
      | fail => exact absurd hans hp.2.1
      | done v =>
        obtain ⟨t, hstep, ht', hin', hfin⟩ := ht.step_done hready ho (hpins ▸ hp) (hpins ▸ hans)
        rw [answersOf_cons_done hans, answerAll] at hend ⊢
        by_cases hidle : (Machine.answerOp r v a).phase = .idle
        · rw [answerAll_of_idle hidle]
          exact ⟨t, 1, by simp, runFor_succ hstep 0, ht', by rw [hin', ← hdrop 0, List.drop_zero], hfin (ht'.phase.trans hidle)⟩
        · obtain ⟨u, n, hn, hu, htu, hinu, hfin'⟩ := ih ht' (hready.answerOp v) (by rw [hin', hin]; rfl) hps' hidle hend
          exact ⟨u, n + 1, by simpa using hn, (runFor_succ hstep n).trans hu, htu, by rw [hinu, hin', hdrop], hfin'⟩

/-- Where the answers leave the command running and then the transport fails, the run ends with that operation. -/
theorem runFor_fails {r : Rec} {a s : State} {ps rest : List Sample} {p : Sample} (ht : Tracks a s) (hready : Ready r a)
    (hin : s.env.inputs = ps ++ p :: rest) (hps : ∀ p ∈ ps, p.harmless) (hrst : p.rst = false) (hans : p.answer = some .fail)
    (hw : p.wbuf = []) (hr : p.rbuf = []) {o : TOp} (ho : (answerAll r (answersOf ps) a).nextOp = some o) :
    ∃ u, runFor (ps.length + 1) s = .next u ∧
      u.log = (answerAll r (answersOf ps) a).log ++ (answerAll r (answersOf ps) a).issueEvents o ++ [.response .errTransport] ∧
      u.phase = .idle ∧ u.busy = false ∧ u.status = .errTransport ∧ u.rsp = some .errTransport ∧ u.outstanding = none ∧
      u.handle = a.handle ∧ u.latch = a.latch ∧ u.env.rbuf = (answerAll r (answersOf ps) a).env.rbuf ∧
      u.env.wbuf = a.env.wbuf ∧ u.env.inputs = rest := by
  have hrun : (answerAll r (answersOf ps) a).phase ≠ .idle := fun h => by rw [nextOp_of_idle h] at ho; cases ho
  obtain ⟨t, hrunt, htt, hint⟩ := runFor_tracks ht hready hin hps hrun
  have hpins := pins_of_inputs hint
  obtain ⟨u, hstep, hlog, hph, hb, hst, hrsp, hout, hh, hl, hrb, hwb, hinu⟩ :=
    htt.step_fail (hready.answerAll _) ho (hpins ▸ hrst) (hpins ▸ hans) (hpins ▸ hw) (hpins ▸ hr)
  refine ⟨u, runFor_snoc hrunt hstep, hlog, hph, hb, hst, hrsp, hout, hh.trans (answerAll_handle _ _ _),
    hl.trans (answerAll_latch _ _ _), hrb, ?_, by rw [hinu, hint]; rfl⟩
  rw [hwb, answerAll_env]

/-! ## The events of a command cut at an operation -/

theorem throughOp_append (k : Nat) (l m : List Event) : throughOp ((opsOf l).length + k) (l ++ m) = l ++ throughOp k m := by
  induction l with
  | nil => simp [opsOf]
  | cons e l ih =>
    cases e with
    | op o =>
      rw [opsOf, List.length_cons, Nat.add_right_comm]
      exact congrArg _ ih
    | wbufRead i v => simpa [opsOf, throughOp] using ih
    | rbufWrite i v => simpa [opsOf, throughOp] using ih
    | response st => simpa [opsOf, throughOp] using ih

theorem throughOp_of_lt {k : Nat} {l : List Event} (h : k < (opsOf l).length) (m : List Event) :
    throughOp k (l ++ m) = throughOp k l := by
  induction l generalizing k with
  | nil => simp [opsOf] at h
  | cons e l ih =>
    cases e with
    | op o =>
      cases k with
      | zero => rfl
      | succ k => exact congrArg (Event.op o :: ·) (ih (by simpa [opsOf] using h))
    | wbufRead i v => simpa [throughOp] using ih (by simpa [opsOf] using h)
    | rbufWrite i v => simpa [throughOp] using ih (by simpa [opsOf] using h)
    | response st => simpa [throughOp] using ih (by simpa [opsOf] using h)

theorem throughOp_zero_issueEvents (s : State) (o : TOp) (l : List Event) :
    throughOp 0 (s.issueEvents o ++ l) = s.issueEvents o := by
  unfold State.issueEvents
  split <;> rfl

/-- Where more answers would have completed the events of the command, fewer have led through as many operations, and the next
one is the one the events go on with. -/
theorem answerAll_throughOp {r : Rec} {a : State} {events : List Event} {vs ws : List Byte} {st : Status}
    (hlog : (answerAll r (vs ++ ws) a).log = a.log ++ events ++ [.response st])
    (hops : (opsOf events).length = vs.length + ws.length) (hws : ws ≠ []) :
    ∃ o, (answerAll r vs a).nextOp = some o ∧
      (answerAll r vs a).log ++ (answerAll r vs a).issueEvents o = a.log ++ throughOp vs.length events := by
  rw [answerAll_append] at hlog
  obtain ⟨done, hdone, hle, hcount⟩ := answerAll_log r vs a
  have hrun : (answerAll r vs a).phase ≠ .idle := fun hidle => by
    rw [answerAll_of_idle hidle, hdone, List.append_assoc, List.append_cancel_left_eq] at hlog
    have hlen := congrArg (fun l => (opsOf l).length) hlog
    simp only [opsOf_append, List.length_append, hops] at hlen
    have := List.length_pos_of_ne_nil hws
    omega
  obtain ⟨o, ho⟩ := exists_nextOp hrun
  obtain ⟨w, ws', rfl⟩ := List.exists_cons_of_ne_nil hws
  obtain ⟨store, hstore, -⟩ := answerOp_log ho r w
  obtain ⟨later, hlater, -, -⟩ := answerAll_log r ws' (answerOp r w (answerAll r vs a))
  refine ⟨o, ho, ?_⟩
  rw [answerAll, hlater, hstore, hdone] at hlog
  simp only [List.append_assoc, List.append_cancel_left_eq] at hlog
  have hevents := throughOp_of_lt (l := events) (m := [.response st]) (show vs.length < (opsOf events).length by
    rw [hops, List.length_cons]; omega)
  have hcut := throughOp_append 0 done ((answerAll r vs a).issueEvents o ++ (store ++ later))
  rw [throughOp_zero_issueEvents, hcount hrun, Nat.add_zero, hlog, hevents] at hcut
  rw [hdone, hcut, List.append_assoc]

end Sys2Proof.Machine
end

section
/-! SUPPORT. The events a running `WRITE` has left, and that every answer takes the first of them (10_state.md R21, R26). -/

namespace Sys2Proof.Machine

/-! ## Chunks -/

theorem chunksFrom_zero (page fuel start : Nat) : chunksFrom page fuel start 0 = [] := by
  cases fuel <;> simp [chunksFrom]

/-- Fuel beyond what remains changes nothing. -/
theorem chunksFrom_fuel {page : Nat} (hpage : 0 < page) {fuel rem : Nat} (h : rem ≤ fuel) (start : Nat) :
    chunksFrom page fuel start rem = chunks page start rem := by
  induction fuel using Nat.strong_induction_on generalizing start rem with
  | _ fuel ih =>
    unfold chunks
    cases fuel with
    | zero => rw [Nat.le_zero.1 h]
    | succ fuel =>
      cases rem with
      | zero => rw [chunksFrom_zero, chunksFrom_zero]
      | succ rem =>
        have hlt : start % page < page := Nat.mod_lt _ hpage
        simp only [chunksFrom]
        rw [ih fuel (by omega) (by omega)]
        by_cases hr : rem < fuel + 1
        · rw [ih rem hr (by omega)]
        · omega

/-- The first chunk of a transfer, and the transfer of the rest (41_write.md R121). -/
theorem chunks_cons {page rem : Nat} (hpage : 0 < page) (hrem : 0 < rem) (start : Nat) :
    chunks page start rem = (start, min (page - start % page) rem) ::
      chunks page (start + min (page - start % page) rem) (rem - min (page - start % page) rem) := by
  have hlt : start % page < page := Nat.mod_lt _ hpage
  obtain ⟨n, rfl⟩ : ∃ n, rem = n + 1 := ⟨rem - 1, by omega⟩
  rw [chunks, chunksFrom, if_neg (by omega), chunksFrom_fuel hpage (by omega)]

@[simp] theorem chunks_zero (page start : Nat) : chunks page start 0 = [] := rfl

/-! ## What a running WRITE has left -/

/-- The events after the current chunk, to the response; `s` gives the base and `WBUF`. -/
def laterChunks (r : Rec) (s a : State) : List Event :=
  chunkListEvents r s (a.dp.idx.toNat + a.dp.chunk.toNat)
    (chunks (pageOf r) (a.dp.curOff.toNat + a.dp.chunk.toNat) (a.dp.rem.toNat - a.dp.chunk.toNat)) ++ [.response .ok]

/-- The events a `WRITE` in the state `a` has left, to the response: those of its current phase first. -/
def writeLeft (r : Rec) (s a : State) : List Event :=
  match a.phase with
  | .wBegin =>
    chunkListEvents r s a.dp.idx.toNat (chunks (pageOf r) a.dp.curOff.toNat a.dp.rem.toNat) ++ [.response .ok]
  | .wAhi =>
    .op (.writeByte (hiByte a.dp.curOff)) :: .op (.writeByte (loByte a.dp.curOff)) ::
      (dataEvents s a.dp.idx.toNat a.dp.chunk.toNat ++ .op .endSession :: laterChunks r s a)
  | .wAlo =>
    .op (.writeByte (loByte a.dp.curOff)) ::
      (dataEvents s a.dp.idx.toNat a.dp.chunk.toNat ++ .op .endSession :: laterChunks r s a)
  | .wData =>
    dataEvents s (a.dp.idx.toNat + a.dp.k.toNat) (a.dp.chunk.toNat - a.dp.k.toNat) ++ .op .endSession :: laterChunks r s a
  | .wEnd => .op .endSession :: laterChunks r s a
  | _ => []

/-- The same state with another latch: a transfer under way does not read it. -/
def State.withLatch (l : Latch) (a : State) : State := { a with latch := l }

@[simp] theorem withLatch_handle (l : Latch) (a : State) : (a.withLatch l).handle = a.handle := rfl
@[simp] theorem withLatch_latch (l : Latch) (a : State) : (a.withLatch l).latch = l := rfl
@[simp] theorem withLatch_dp (l : Latch) (a : State) : (a.withLatch l).dp = a.dp := rfl
@[simp] theorem withLatch_phase (l : Latch) (a : State) : (a.withLatch l).phase = a.phase := rfl

/-- An answer carries the latch along. -/
theorem doneState_withLatch (r : Rec) (v : Byte) (a : State) (l : Latch) :
    doneState r v (a.withLatch l) = (doneState r v a).withLatch l := by
  cases hp : a.phase <;> simp only [doneState, withLatch_phase, hp]
  case wEnd =>
    by_cases hlast : a.dp.rem - a.dp.chunk.setWidth 16 = 0
    · rw [endChunk_of_last hlast, endChunk_of_last (s := a.withLatch l) hlast]; rfl
    · rw [endChunk_of_left hlast, endChunk_of_left (s := a.withLatch l) hlast]; rfl
  all_goals rfl

/-- A `WRITE` in the state `a` driven by its answers, its handle and `WBUF` those of `s`. The latch does not matter: the cursors are
those of a request that some latch holds. -/
structure Writing (r : Rec) (s a : State) : Prop where
  handle : a.handle = s.handle
  wbuf : a.env.wbuf = s.env.wbuf
  record : a.record = some r
  phase : a.phase.isWrite = true
  cursors : ∃ l, WriteInv r (a.withLatch l)

section Writing
variable {r : Rec} {s a : State}

theorem Writing.running (h : Writing r s a) : a.phase ≠ .idle := fun hp => by
  have := h.phase
  rw [hp] at this; cases this

theorem Writing.ne_rData (h : Writing r s a) : a.phase ≠ .rData := fun hp => by
  have := h.phase
  rw [hp] at this; cases this

/-- An answer leaves a running `WRITE`, or the command complete. -/
theorem Writing.answerOp (h : Writing r s a) (v : Byte) :
    (answerOp r v a).phase = .idle ∨ Writing r s (answerOp r v a) := by
  obtain ⟨l, hl⟩ := h.cursors
  obtain ⟨o, ho⟩ := exists_nextOp h.running
  have hl' : WriteInv r ((a.opDone o).withLatch l) := hl.congr rfl rfl rfl rfl
  have hnext := hl'.doneState (record_dispatch h.record) v h.phase
  rw [doneState_withLatch, ← answerOp_of_nextOp ho] at hnext
  refine hnext.imp id fun ⟨hph, hcur⟩ => ?_
  exact
    { handle := (answerOp_handle r v a).trans h.handle
      wbuf := by rw [answerOp_env]; exact h.wbuf
      record := (record_congr (answerOp_handle r v a)).trans h.record
      phase := hph
      cursors := ⟨l, hcur⟩ }

/-- The events a chunk begins with are those of its `T.begin` and its address, then its data. -/
theorem writeLeft_of_wBegin (h : Writing r s a) (hp : a.phase = .wBegin) :
    writeLeft r s a = .op (.beginSession a.dp.busb) ::
      ((addressBytes r a.dp.curOff).map (fun b => .op (.writeByte b)) ++
        (dataEvents s a.dp.idx.toNat a.dp.chunk.toNat ++ .op .endSession :: laterChunks r s a)) := by
  obtain ⟨l, hl⟩ := h.cursors
  obtain ⟨hpos, hlt, hchunk, hrem, -⟩ := hl.range (record_dispatch h.record)
  have hbus : a.dp.busb = busAddr r s.base a.dp.curOff := by
    rw [← base_congr (s := s) (t := a.withLatch l) h.handle]; exact hl.bus
  simp only [withLatch_dp] at hpos hlt hchunk hrem
  rw [hpos] at hchunk hlt
  rw [writeLeft, hp]
  dsimp only
  rw [chunks_cons (by omega) hrem, ← hchunk, chunkListEvents, chunkEvents, BitVec.ofNat_toNat, BitVec.setWidth_eq, ← hbus]
  simp [laterChunks]

theorem writeLeft_of_wData (hp : a.phase = .wData) : writeLeft r s a =
    dataEvents s (a.dp.idx.toNat + a.dp.k.toNat) (a.dp.chunk.toNat - a.dp.k.toNat) ++
      .op .endSession :: laterChunks r s a := by
  simp [writeLeft, hp]

/-- The data left of a chunk begins with the byte at `IDX + K`. -/
theorem dataEvents_of_wData (h : Writing r s a) (hp : a.phase = .wData) :
    dataEvents s (a.dp.idx.toNat + a.dp.k.toNat) (a.dp.chunk.toNat - a.dp.k.toNat) =
      a.issueEvents (.writeByte (a.wbufAt (a.dp.idx + a.dp.k.setWidth 16).toNat)) ++
        dataEvents s (a.dp.idx.toNat + (a.dp.k + 1).toNat) (a.dp.chunk.toNat - (a.dp.k + 1).toNat) := by
  obtain ⟨l, hl⟩ := h.cursors
  obtain ⟨-, -, hchunk, -, -⟩ := hl.range (record_dispatch h.record)
  have hk : a.dp.k.toNat < a.dp.chunk.toNat := by
    have := hl.k
    rw [withLatch_phase, hp] at this
    exact this
  have hparts := hl.parts
  have hlen := l.cLen.isLt
  simp only [withLatch_dp, withLatch_latch] at hchunk hparts
  have hk1 : (a.dp.k + 1).toNat = a.dp.k.toNat + 1 := by
    rw [BitVec.toNat_add_of_lt] <;> simp; omega
  have hi : (a.dp.idx + a.dp.k.setWidth 16).toNat = a.dp.idx.toNat + a.dp.k.toNat := by
    rw [BitVec.toNat_add, chunk_setWidth_toNat]; omega
  have hofNat : BitVec.ofNat 16 (a.dp.idx.toNat + a.dp.k.toNat) = a.dp.idx + a.dp.k.setWidth 16 := by
    rw [← hi, BitVec.ofNat_toNat, BitVec.setWidth_eq]
  rw [issueEvents_of_wData hp, hi, hk1, wbufAt_congr h.wbuf,
    show a.dp.chunk.toNat - a.dp.k.toNat = a.dp.chunk.toNat - (a.dp.k.toNat + 1) + 1 by omega, dataEvents, hofNat]
  rfl

/-- Every answer takes the first operation, with its buffer access, of the events left, and the last one the response too. -/
theorem Writing.left_answerOp (h : Writing r s a) (v : Byte) :
    (Machine.answerOp r v a).log ++ writeLeft r s (Machine.answerOp r v a) = a.log ++ writeLeft r s a := by
  obtain ⟨l, hl⟩ := h.cursors
  have hphase := h.phase
  cases hp : a.phase <;> rw [hp] at hphase
  case wBegin =>
    have ho : a.nextOp = some (.beginSession a.dp.busb) := by simp [State.nextOp, hp]
    rw [answerOp_of_nextOp ho, doneState_wBegin (s := a.opDone _) hp, writeLeft_of_wBegin h hp]
    by_cases h2 : r.addrBytes = 2
    · simp only [addressBytes, if_pos h2]
      simp [writeLeft, laterChunks, issueEvents_of_ne_wData, hp]
    · simp only [addressBytes, if_neg h2]
      simp [writeLeft, laterChunks, issueEvents_of_ne_wData, hp]
  case wAhi => simp [Machine.answerOp, State.nextOp, doneState, writeLeft, laterChunks, issueEvents_of_ne_wData, hp]
  case wAlo =>
    have hk : a.dp.k = 0 := by
      have := hl.k
      rw [withLatch_phase, hp] at this
      exact this
    simp [Machine.answerOp, State.nextOp, doneState, writeLeft, laterChunks, issueEvents_of_ne_wData, hp, hk]
  case wData =>
    have ho : a.nextOp = some (.writeByte (a.wbufAt (a.dp.idx + a.dp.k.setWidth 16).toNat)) := by simp [State.nextOp, hp]
    rw [answerOp_of_nextOp ho, doneState_wData (s := a.opDone _) hp]
    rw [writeLeft_of_wData hp, dataEvents_of_wData h hp]
    by_cases hlast : a.dp.k + 1 = a.dp.chunk
    · rw [if_pos (show (a.opDone _).dp.k + 1 = (a.opDone _).dp.chunk from hlast), hlast, Nat.sub_self]
      simp [writeLeft, laterChunks, dataEvents]
    · rw [if_neg (show ¬ (a.opDone _).dp.k + 1 = (a.opDone _).dp.chunk from hlast)]
      simp [writeLeft, laterChunks]
  case wEnd =>
    have ho : a.nextOp = some .endSession := by simp [State.nextOp, hp]
    obtain ⟨hrem, hadv⟩ := hl.advance (record_dispatch h.record)
    simp only [withLatch_dp] at hrem hadv
    rw [answerOp_of_nextOp ho, doneState_wEnd (s := a.opDone _) hp]
    by_cases hlast : a.dp.rem - a.dp.chunk.setWidth 16 = 0
    · rw [hlast] at hrem
      rw [endChunk_of_last (s := a.opDone _) hlast]
      simp [writeLeft, laterChunks, issueEvents_of_ne_wData, hp, ← hrem, chunkListEvents]
    · obtain ⟨hcur, hidx⟩ := hadv hlast
      have hnext : writeLeft r s { chunkSetup r (advanceChunk (a.opDone .endSession)) with phase := .wBegin } =
          laterChunks r s a := by
        rw [laterChunks, ← hrem, ← hcur, ← hidx]; rfl
      rw [endChunk_of_left (s := a.opDone _) hlast, hnext]
      simp [writeLeft, issueEvents_of_ne_wData, hp]
  all_goals cases hphase

/-- A running `WRITE` has an operation left. -/
theorem Writing.left_ops (h : Writing r s a) : 0 < (opsOf (writeLeft r s a)).length := by
  have hphase := h.phase
  cases hp : a.phase <;> rw [hp] at hphase
  case wBegin => rw [writeLeft_of_wBegin h hp]; simp [opsOf]
  case wAhi | wAlo | wData | wEnd => simp [writeLeft, hp, opsOf]
  all_goals cases hphase

/-- Answers leave a running `WRITE` or the command complete, the events kept. -/
theorem Writing.answerAll (h : Writing r s a) (vs : List Byte) :
    (Machine.answerAll r vs a).log ++ writeLeft r s (Machine.answerAll r vs a) = a.log ++ writeLeft r s a ∧
    (Machine.answerAll r vs a).env.rbuf = a.env.rbuf ∧
    ((Machine.answerAll r vs a).phase = .idle ∨ Writing r s (Machine.answerAll r vs a)) := by
  induction vs generalizing a with
  | nil => exact ⟨rfl, rfl, .inr h⟩
  | cons v vs ih =>
    have hrbuf : (Machine.answerOp r v a).env.rbuf = a.env.rbuf := by rw [answerOp_env, if_neg h.ne_rData]
    have hleft := h.left_answerOp v
    rw [Machine.answerAll]
    rcases h.answerOp v with hidle | hgoing
    · rw [answerAll_of_idle hidle]
      exact ⟨hleft, hrbuf, .inl hidle⟩
    · obtain ⟨hlog, hrb, hph⟩ := ih hgoing
      exact ⟨hlog.trans hleft, hrb.trans hrbuf, hph⟩

/-- As many answers as operations are left complete a `WRITE`. -/
theorem Writing.completes (h : Writing r s a) {vs : List Byte} (hvs : vs.length = (opsOf (writeLeft r s a)).length) :
    (Machine.answerAll r vs a).phase = .idle ∧ (Machine.answerAll r vs a).log = a.log ++ writeLeft r s a := by
  obtain ⟨hlog, -, hph⟩ := h.answerAll vs
  have hidle : (Machine.answerAll r vs a).phase = .idle := hph.resolve_right fun hgoing => by
    obtain ⟨events, hev, -, hcount⟩ := answerAll_log r vs a
    have hops := congrArg (fun l => (opsOf l).length) hlog
    simp only [hev, opsOf_append, List.length_append, hcount hgoing.running] at hops
    have := hgoing.left_ops
    omega
  refine ⟨hidle, ?_⟩
  rw [← hlog]
  simp [writeLeft, hidle]

end Writing

/-! ## The WRITE run -/

/-- A `WRITE` at its start has the pseudocode's events left (41_write.md R121). -/
theorem startWrite_writing {s : State} {r : Rec} {off len : Offset} (had : s.Admits r off len) :
    Writing r s (startWrite off len r s) ∧
    writeLeft r s (startWrite off len r s) = writeEvents r s off.toNat len.toNat ++ [.response .ok] := by
  refine ⟨⟨rfl, rfl, had.record, rfl, { op := 0b10, cOff := off, cLen := len }, ?_⟩, rfl⟩
  exact { inReach := had.inReach, parts := by simp, bus := rfl, opcode := rfl, curOff := by simp, left := had.moves,
          pos := rfl, chunk := rfl, high := (nomatch ·), k := rfl }

/-- At the end of a command nothing is on the port. -/
theorem Tracks.of_idle {a s : State} (h : Tracks a s) (hidle : a.phase = .idle) : s.outstanding = none ∧ s.log = a.log := by
  rcases h.port with hquiet | ⟨o, ho, -⟩
  · exact hquiet
  · rw [nextOp_of_idle hidle] at ho; cases ho

/-- A command that ends leaves no session open on the bus. -/
theorem answerAll_env_of_idle {r : Rec} {a : State} (h : Ready r a) {vs : List Byte} (hidle : (answerAll r vs a).phase = .idle) :
    (answerAll r vs a).env.sessionOpen = false := by rw [(h.answerAll vs).session, hidle]; rfl

/-- Settles O49. -/
theorem writeRunIsItsPseudocode : Obligations.WriteRunIsItsPseudocode := by
  intro s r off len ps rest hv hr hne hin hdev hopen hout hinputs hps hcount
  have had : s.Admits r off len := ⟨hv, hr, hin, hne⟩
  obtain ⟨hw, hleft⟩ := startWrite_writing had
  have hready : Ready r (startWrite off len r s) := ⟨hr, hdev, hopen⟩
  obtain ⟨hidle, hlog⟩ := hw.completes (vs := answersOf ps) (by rw [hleft, hcount]; simp [opsOf])
  obtain ⟨-, hrbuf, -⟩ := hw.answerAll (answersOf ps)
  obtain ⟨u, n, hn, hrun, htu, hinu, hb, hst, hrsp⟩ :=
    runFor_completes (Tracks.refl (s := startWrite off len r s) hout) hready hinputs hps hw.running hidle
  refine ⟨startWrite off len r s, u, n, admitTransfer_of_admits had _, hn, hrun, ?_, htu.phase.trans hidle, hb, hst, hrsp, ?_,
    ?_, ?_, ?_⟩
  · rw [(htu.of_idle hidle).2, hlog, hleft, ← List.append_assoc]; rfl
  · exact (htu.of_idle hidle).1
  · exact htu.handle.trans (answerAll_handle _ _ _)
  · exact htu.latch.trans (answerAll_latch _ _ _)
  · rw [htu.env, answerAll_env, answerAll_env_of_idle hready hidle, hrbuf, hinu, ← hopen]; rfl

/-- Settles O50. -/
theorem failedWriteRunIsItsPseudocode : Obligations.FailedWriteRunIsItsPseudocode := by
  intro s r off len ps p rest hv hr hne hin hdev hopen hout hinputs hps hrst hans hpw hpr hcount
  have had : s.Admits r off len := ⟨hv, hr, hin, hne⟩
  obtain ⟨hw, hleft⟩ := startWrite_writing had
  have hready : Ready r (startWrite off len r s) := ⟨hr, hdev, hopen⟩
  obtain ⟨ws, hws⟩ : ∃ ws : List Byte, (opsOf (writeEvents r s off.toNat len.toNat)).length = (answersOf ps).length + ws.length :=
    ⟨List.replicate ((opsOf (writeEvents r s off.toNat len.toNat)).length - (answersOf ps).length) 0, by simp; omega⟩
  obtain ⟨-, hlog⟩ := hw.completes (vs := answersOf ps ++ ws) (by rw [hleft, opsOf_append, List.length_append]; simp [opsOf, hws])
  rw [hleft, ← List.append_assoc] at hlog
  obtain ⟨o, ho, hcut⟩ := answerAll_throughOp hlog hws (fun h => by rw [h] at hws; simp at hws; omega)
  obtain ⟨u, hrun, hulog, hph, hb, hst, hrsp, hport, hh, hl, hrb, hwb, hinu⟩ :=
    runFor_fails (Tracks.refl (s := startWrite off len r s) hout) hready hinputs hps hrst hans hpw hpr ho
  obtain ⟨-, hrbuf, -⟩ := hw.answerAll (answersOf ps)
  exact ⟨startWrite off len r s, u, admitTransfer_of_admits had _, hrun, by rw [hulog, hcut]; rfl, hph, hb, hst, hrsp, hport,
    hh, hl, hrb.trans hrbuf, hwb, hinu⟩

end Sys2Proof.Machine
end

section
/-! SUPPORT. The events a running `READ` has left, given the answers to come, and the bytes they store (10_state.md R22, R26). -/

namespace Sys2Proof.Machine

/-! ## What a running READ has left -/

/-- How many operations a `READ` in a phase has before its first data byte. -/
def opsAhead (r : Rec) : Phase → Nat
  | .rBeginW => addrBytesOf r + 3
  | .rAhi => 4
  | .rAlo => 3
  | .rEndW => 2
  | .rBeginR => 1
  | _ => 0

/-- The bytes still to be stored among the answers to come. -/
def dataAhead (r : Rec) (a : State) (vs : List Byte) : List Byte := (vs.drop (opsAhead r a.phase)).take a.dp.rem.toNat

/-- The events from a `READ`'s next data byte on, to the response. -/
def readDataLeft (a : State) (values : List Byte) : List Event :=
  readData a.dp.idx.toNat values ++ [.op .endSession, .response .ok]

/-- The events from the read session's `T.begin` on. -/
def readSessionLeft (a : State) (values : List Byte) : List Event :=
  .op (.beginSession (a.dp.busb ||| 0x01#8)) :: readDataLeft a values

/-- The events a `READ` in the state `a` has left, to the response, where the bytes still to be stored are `values`. -/
def readLeft (r : Rec) (a : State) (values : List Byte) : List Event :=
  match a.phase with
  | .rBeginW =>
    .op (.beginSession a.dp.busb) :: ((addressBytes r a.dp.curOff).map (fun b => .op (.writeByte b)) ++
      .op .endSession :: readSessionLeft a values)
  | .rAhi =>
    .op (.writeByte (hiByte a.dp.curOff)) :: .op (.writeByte (loByte a.dp.curOff)) ::
      .op .endSession :: readSessionLeft a values
  | .rAlo => .op (.writeByte (loByte a.dp.curOff)) :: .op .endSession :: readSessionLeft a values
  | .rEndW => .op .endSession :: readSessionLeft a values
  | .rBeginR => readSessionLeft a values
  | .rData => readDataLeft a values
  | .rEnd => [.op .endSession, .response .ok]
  | _ => []

/-- A `READ` in the state `a` driven by its answers. -/
structure Reading (r : Rec) (a : State) : Prop where
  record : a.record = some r
  running : a.phase ≠ .idle
  phase : a.phase.isWrite = false
  cursors : ∃ l, ReadInv r (a.withLatch l)

/-- A byte stored: acknowledged unless it is the last (42_read.md R143). -/
theorem readData_cons (idx : Nat) (v : Byte) (values : List Byte) : readData idx (v :: values) =
    .op (if values = [] then .readByteNak else .readByteAck) :: .rbufWrite (BitVec.ofNat 16 idx) v ::
      readData (idx + 1) values := by
  cases values <;> simp [readData]

section Reading
variable {r : Rec} {a : State}

/-- An answer leaves a running `READ`, or the command complete. -/
theorem Reading.answerOp (h : Reading r a) (v : Byte) : (answerOp r v a).phase = .idle ∨ Reading r (answerOp r v a) := by
  obtain ⟨l, hl⟩ := h.cursors
  obtain ⟨o, ho⟩ := exists_nextOp h.running
  have hl' : ReadInv r ((a.opDone o).withLatch l) := hl.congr rfl rfl rfl rfl
  have hnext := hl'.doneState v h.running h.phase
  rw [doneState_withLatch, ← answerOp_of_nextOp ho] at hnext
  rw [or_iff_not_imp_left]
  intro hrun
  obtain ⟨hph, hcur⟩ := hnext.resolve_left hrun
  exact ⟨(record_congr (answerOp_handle r v a)).trans h.record, hrun, hph, l, hcur⟩

/-- The data left, as numbers. -/
theorem Reading.rData_advance (h : Reading r a) (hp : a.phase = .rData) :
    a.dp.rem ≠ 0 ∧ (a.dp.idx + 1).toNat = a.dp.idx.toNat + 1 ∧ (a.dp.rem - 1).toNat = a.dp.rem.toNat - 1 := by
  obtain ⟨l, hl⟩ := h.cursors
  have hne : a.dp.rem ≠ 0 := by
    have := hl.left
    rwa [withLatch_phase, hp] at this
  exact ⟨hne, hl.advance hne⟩

/-- Before its data a `READ` moves its phase only, one operation nearer to the data. -/
theorem Reading.answerOp_ahead (h : Reading r a) (hd : a.phase ≠ .rData) (he : a.phase ≠ .rEnd) (v : Byte) :
    (Machine.answerOp r v a).dp = a.dp ∧ (Machine.answerOp r v a).phase ≠ .idle ∧
    opsAhead r a.phase = opsAhead r (Machine.answerOp r v a).phase + 1 := by
  have hphase := h.phase
  obtain ⟨o, ho⟩ := exists_nextOp h.running
  rw [answerOp_of_nextOp ho]
  cases hp : a.phase <;> rw [hp] at hphase
  case idle => exact absurd hp h.running
  case rBeginW =>
    rw [doneState_rBeginW (s := a.opDone _) hp]
    rcases addrBytes_eq (record_dispatch h.record) with h1 | h2
    · rw [if_neg (by rw [h1]; decide)]; simp [opsAhead, addrBytesOf, h1]
    · rw [if_pos h2]; simp [opsAhead, addrBytesOf, h2]
  case rAhi | rAlo | rEndW | rBeginR => simp [doneState, hp, opsAhead]
  case rData => exact absurd hp hd
  case rEnd => exact absurd hp he
  all_goals cases hphase

/-- A data byte received moves the cursors on by one; no operation stands before the next data byte. -/
theorem answerOp_of_rData (hp : a.phase = .rData) (v : Byte) :
    (Machine.answerOp r v a).dp = { a.dp with idx := a.dp.idx + 1, rem := a.dp.rem - 1 } ∧
    (Machine.answerOp r v a).phase = (if a.dp.rem - 1 = 0 then .rEnd else .rData) ∧
    (Machine.answerOp r v a).log = a.log ++
      [.op (if 1#16 < a.dp.rem then .readByteAck else .readByteNak), .rbufWrite a.dp.idx v] := by
  have ho : a.nextOp = some (if 1#16 < a.dp.rem then .readByteAck else .readByteNak) := by simp [State.nextOp, hp]
  rw [answerOp_of_nextOp ho, doneState_rData (s := a.opDone _) hp]
  refine ⟨rfl, rfl, ?_⟩
  simp [issueEvents_of_ne_wData, hp]

theorem answerOp_of_rEnd (hp : a.phase = .rEnd) (v : Byte) :
    (Machine.answerOp r v a).phase = .idle ∧
    (Machine.answerOp r v a).log = a.log ++ [.op .endSession, .response .ok] := by
  have ho : a.nextOp = some .endSession := by simp [State.nextOp, hp]
  rw [answerOp_of_nextOp ho, doneState_rEnd (s := a.opDone _) hp]
  simp [issueEvents_of_ne_wData, hp]

/-- Before its data an answer takes the first of the events left. -/
theorem Reading.ahead_left_answerOp (h : Reading r a) (hd : a.phase ≠ .rData) (he : a.phase ≠ .rEnd) (v : Byte)
    (values : List Byte) :
    (Machine.answerOp r v a).log ++ readLeft r (Machine.answerOp r v a) values = a.log ++ readLeft r a values := by
  have hphase := h.phase
  cases hp : a.phase <;> rw [hp] at hphase
  case idle => exact absurd hp h.running
  case rBeginW =>
    have ho : a.nextOp = some (.beginSession a.dp.busb) := by simp [State.nextOp, hp]
    rw [answerOp_of_nextOp ho, doneState_rBeginW (s := a.opDone _) hp]
    by_cases h2 : r.addrBytes = 2
    · rw [if_pos h2]
      simp only [readLeft, hp, addressBytes, if_pos h2]
      simp [readSessionLeft, readDataLeft, issueEvents_of_ne_wData, hp]
    · rw [if_neg h2]
      simp only [readLeft, hp, addressBytes, if_neg h2]
      simp [readSessionLeft, readDataLeft, issueEvents_of_ne_wData, hp]
  case rAhi | rAlo | rEndW | rBeginR =>
    simp [Machine.answerOp, State.nextOp, doneState, readLeft, readSessionLeft, readDataLeft, issueEvents_of_ne_wData, hp]
  case rData => exact absurd hp hd
  case rEnd => exact absurd hp he
  all_goals cases hphase

/-- A data byte takes its operation and its store of the events left, acknowledged while a byte is to follow. -/
theorem Reading.data_left_answerOp (h : Reading r a) (hp : a.phase = .rData) (v : Byte) {values : List Byte}
    (hlen : values.length = a.dp.rem.toNat - 1) :
    (Machine.answerOp r v a).log ++ readLeft r (Machine.answerOp r v a) values = a.log ++ readLeft r a (v :: values) := by
  obtain ⟨hne, hidx, hrem⟩ := h.rData_advance hp
  obtain ⟨hdp, hph, hlog⟩ := answerOp_of_rData (r := r) hp v
  have hpos := offset_pos hne
  have hleft : readLeft r a (v :: values) = .op (if 1#16 < a.dp.rem then .readByteAck else .readByteNak) ::
      .rbufWrite a.dp.idx v :: (readData (a.dp.idx.toNat + 1) values ++ [.op .endSession, .response .ok]) := by
    have hack : 1#16 < a.dp.rem ↔ values ≠ [] := by
      rw [BitVec.lt_def, ← List.length_pos_iff, hlen]
      show 1 < a.dp.rem.toNat ↔ _
      omega
    rw [readLeft, hp]
    dsimp only
    rw [readDataLeft, readData_cons, BitVec.ofNat_toNat, BitVec.setWidth_eq]
    by_cases hv : values = []
    · rw [if_pos hv, if_neg (mt hack.1 (not_not.2 hv))]; rfl
    · rw [if_neg hv, if_pos (hack.2 hv)]; rfl
  have hnext : readLeft r (Machine.answerOp r v a) values =
      readData (a.dp.idx.toNat + 1) values ++ [.op .endSession, .response .ok] := by
    by_cases hlast : a.dp.rem - 1 = 0
    · rw [if_pos hlast] at hph
      obtain rfl : values = [] := List.length_eq_zero_iff.1 (by rw [hlen, ← hrem, hlast]; rfl)
      rw [readLeft, hph]; rfl
    · rw [if_neg hlast] at hph
      rw [readLeft, hph, ← hidx]
      dsimp only
      rw [readDataLeft, hdp]
  rw [hlog, hleft, hnext]
  simp

theorem dataAhead_of_rData (hp : a.phase = .rData) (hne : a.dp.rem ≠ 0) (v : Byte) (vs : List Byte) :
    dataAhead r a (v :: vs) = v :: vs.take (a.dp.rem.toNat - 1) := by
  obtain ⟨n, hn⟩ : ∃ n, a.dp.rem.toNat = n + 1 := ⟨a.dp.rem.toNat - 1, by have := offset_pos hne; omega⟩
  rw [dataAhead, hp, hn]
  rfl

/-- The answers' bytes: a data byte is the next one stored, any other answer is none of them. -/
theorem Reading.dataAhead_answerOp (h : Reading r a) (he : a.phase ≠ .rEnd) (v : Byte) (vs : List Byte) :
    dataAhead r a (v :: vs) =
      if a.phase = .rData then v :: dataAhead r (Machine.answerOp r v a) vs else dataAhead r (Machine.answerOp r v a) vs := by
  by_cases hp : a.phase = .rData
  · obtain ⟨hne, -, hrem⟩ := h.rData_advance hp
    obtain ⟨hdp, hph, -⟩ := answerOp_of_rData (r := r) hp v
    have hahead : opsAhead r (Machine.answerOp r v a).phase = 0 := by rw [hph]; split <;> rfl
    rw [if_pos hp, dataAhead_of_rData hp hne, ← hrem, dataAhead, hahead, hdp]
    rfl
  · obtain ⟨hdp, -, hahead⟩ := h.answerOp_ahead hp he v
    rw [if_neg hp, dataAhead, dataAhead, hahead, hdp, List.drop_succ_cons]

/-- Only `R_END` completes a `READ`. -/
theorem Reading.answerOp_of_ne_rEnd (h : Reading r a) (he : a.phase ≠ .rEnd) (v : Byte) : Reading r (Machine.answerOp r v a) := by
  refine (h.answerOp v).resolve_left ?_
  by_cases hp : a.phase = .rData
  · obtain ⟨-, hph, -⟩ := answerOp_of_rData (r := r) hp v
    rw [hph]; split <;> simp
  · exact (h.answerOp_ahead hp he v).2.1

/-- How many operations a `READ` has left. -/
def opsLeft (r : Rec) (a : State) : Nat := opsAhead r a.phase + a.dp.rem.toNat + 1

theorem Reading.rem_of_rEnd (h : Reading r a) (hp : a.phase = .rEnd) : a.dp.rem = 0 := by
  obtain ⟨l, hl⟩ := h.cursors
  have := hl.left
  rwa [withLatch_phase, hp] at this

/-- An answer takes one of the operations left. -/
theorem Reading.opsLeft_answerOp (h : Reading r a) (he : a.phase ≠ .rEnd) (v : Byte) :
    opsLeft r a = opsLeft r (Machine.answerOp r v a) + 1 := by
  by_cases hp : a.phase = .rData
  · obtain ⟨hne, -, hrem⟩ := h.rData_advance hp
    obtain ⟨hdp, hph, -⟩ := answerOp_of_rData (r := r) hp v
    have hahead : opsAhead r (Machine.answerOp r v a).phase = 0 := by rw [hph]; split <;> rfl
    have hpos := offset_pos hne
    have hrem' : (Machine.answerOp r v a).dp.rem.toNat = a.dp.rem.toNat - 1 := by rw [hdp]; exact hrem
    rw [opsLeft, opsLeft, hahead, hrem', hp]
    simp only [opsAhead]
    omega
  · obtain ⟨hdp, -, hahead⟩ := h.answerOp_ahead hp he v
    rw [opsLeft, opsLeft, hahead, hdp]
    omega

/-- As many answers as operations are left complete a `READ`, the bytes among them stored. -/
theorem Reading.completes (h : Reading r a) {vs : List Byte} (hvs : vs.length = opsLeft r a) :
    (Machine.answerAll r vs a).phase = .idle ∧
    (Machine.answerAll r vs a).log = a.log ++ readLeft r a (dataAhead r a vs) := by
  induction vs generalizing a with
  | nil => simp [opsLeft] at hvs
  | cons v vs ih =>
    rw [Machine.answerAll]
    by_cases he : a.phase = .rEnd
    · obtain ⟨hidle, hlog⟩ := answerOp_of_rEnd (r := r) he v
      rw [answerAll_of_idle hidle]
      exact ⟨hidle, by rw [hlog, readLeft, he]⟩
    · have hops := h.opsLeft_answerOp he v
      have hdata := h.dataAhead_answerOp he v vs
      obtain ⟨hidle, hlog⟩ := ih (h.answerOp_of_ne_rEnd he v) (by rw [List.length_cons] at hvs; omega)
      refine ⟨hidle, hlog.trans ?_⟩
      by_cases hp : a.phase = .rData
      · rw [if_pos hp] at hdata
        have hlen := congrArg List.length (hdata.symm.trans (dataAhead_of_rData hp (h.rData_advance hp).1 v vs))
        have hahead : opsAhead r a.phase = 0 := by rw [hp]; rfl
        rw [List.length_cons, opsLeft, hahead] at hvs
        rw [hdata]
        exact h.data_left_answerOp hp v (by simp only [List.length_cons, List.length_take] at hlen; omega)
      · rw [if_neg hp] at hdata
        rw [hdata]
        exact h.ahead_left_answerOp hp he v _

/-- The bytes among the answers are in `RBUF` from `IDX` on, the rest of it is as it was. -/
theorem Reading.rbufAt_answerAll (h : Reading r a) (vs : List Byte) (i : Nat) :
    (Machine.answerAll r vs a).rbufAt i =
      if i < a.dp.idx.toNat then a.rbufAt i else ((dataAhead r a vs)[i - a.dp.idx.toNat]?).getD (a.rbufAt i) := by
  induction vs generalizing a with
  | nil => simp [Machine.answerAll, dataAhead]
  | cons v vs ih =>
    have henv := answerOp_env r v a
    rw [Machine.answerAll]
    by_cases he : a.phase = .rEnd
    · obtain ⟨hidle, -⟩ := answerOp_of_rEnd (r := r) he v
      rw [answerAll_of_idle hidle, rbufAt_congr (s := a) (by rw [henv, if_neg (by simp [he])])]
      simp [dataAhead, h.rem_of_rEnd he]
    · have hdata := h.dataAhead_answerOp he v vs
      rw [ih (h.answerOp_of_ne_rEnd he v)]
      by_cases hp : a.phase = .rData
      · obtain ⟨-, hidx, -⟩ := h.rData_advance hp
        have hidx' : (Machine.answerOp r v a).dp.idx.toNat = a.dp.idx.toNat + 1 := by
          rw [(answerOp_of_rData (r := r) hp v).1]; exact hidx
        have hbyte := rbufAt_of_put (s := a) (t := Machine.answerOp r v a) (a := a.dp.idx.toNat) (v := v)
          (by rw [henv, if_pos hp]) i
        rw [if_pos hp] at hdata
        rw [hdata, hbyte, hidx']
        rcases Nat.lt_trichotomy i a.dp.idx.toNat with hlt | rfl | hgt
        · rw [if_pos (by omega), if_neg (by omega), if_pos hlt]
        · simp
        · obtain ⟨n, rfl⟩ : ∃ n, i = a.dp.idx.toNat + 1 + n := ⟨i - (a.dp.idx.toNat + 1), by omega⟩
          rw [if_neg (by omega), if_neg (by omega), if_neg (by omega), Nat.add_sub_cancel_left,
            show a.dp.idx.toNat + 1 + n - a.dp.idx.toNat = n + 1 by omega, List.getElem?_cons_succ]
      · obtain ⟨hdp, -, -⟩ := h.answerOp_ahead hp he v
        rw [if_neg hp] at hdata
        rw [hdata, hdp, rbufAt_congr (s := a) (t := Machine.answerOp r v a) (by rw [henv, if_neg hp])]

end Reading

/-! ## The READ run -/

/-- A `READ` at its start has the pseudocode's events left (42_read.md R141). -/
theorem startRead_reading {s : State} {r : Rec} {off len : Offset} (had : s.Admits r off len) :
    Reading r (startRead off len r s) ∧
    (∀ values, readLeft r (startRead off len r s) values = readEvents r s off.toNat values ++ [.response .ok]) ∧
    (∀ vs, dataAhead r (startRead off len r s) vs = (vs.drop (addrBytesOf r + 3)).take len.toNat) ∧
    opsLeft r (startRead off len r s) = addrBytesOf r + len.toNat + 4 := by
  refine ⟨⟨had.record, by simp, rfl, { op := 0b11, cOff := off, cLen := len }, ?_⟩, fun values => ?_, fun vs => rfl, ?_⟩
  · exact { inReach := had.inReach, parts := by simp, bus := rfl, opcode := rfl, curOff := rfl, high := (nomatch ·),
            left := ⟨had.moves, rfl⟩ }
  · simp [readLeft, readEvents, readSessionLeft, readDataLeft]
  · show addrBytesOf r + 3 + len.toNat + 1 = _
    omega

theorem opsOf_readData_length (idx : Nat) (values : List Byte) : (opsOf (readData idx values)).length = values.length := by
  induction values generalizing idx with
  | nil => rfl
  | cons v values ih => rw [readData_cons]; simp [opsOf, ih]

theorem opsOf_map_writeByte (bytes : List Byte) :
    opsOf (bytes.map (fun b => .op (.writeByte b))) = bytes.map .writeByte := by
  induction bytes with
  | nil => rfl
  | cons b bytes ih => simp [opsOf, ih]

theorem addressBytes_length {d : BitVec 16} {r : Rec} (h : dispatch d = some r) (off : Offset) :
    (addressBytes r off).length = addrBytesOf r := by
  rcases addrBytes_eq h with h1 | h2
  · rw [addressBytes, if_neg (by rw [h1]; decide), addrBytesOf, h1]; rfl
  · rw [addressBytes, if_pos h2, addrBytesOf, h2]; rfl

/-- The size of a `READ`'s trace (42_read.md R144). -/
theorem opsOf_readEvents_length {d : BitVec 16} {r : Rec} (h : dispatch d = some r) (s : State) (off : Nat) (values : List Byte) :
    (opsOf (readEvents r s off values)).length = addrBytesOf r + values.length + 4 := by
  simp only [readEvents, opsOf, opsOf_append, opsOf_map_writeByte, List.length_cons, List.length_append, List.length_map,
    addressBytes_length h, opsOf_readData_length, List.length_nil]
  omega

/-- Settles O51. -/
theorem readRunIsItsPseudocode : Obligations.ReadRunIsItsPseudocode := by
  intro s r off len ps rest hv hr hne hin hdev hopen hout hinputs hps hcount
  have had : s.Admits r off len := ⟨hv, hr, hin, hne⟩
  obtain ⟨hread, hleft, hdata, hops⟩ := startRead_reading had
  have hready : Ready r (startRead off len r s) := ⟨hr, hdev, hopen⟩
  obtain ⟨hidle, hlog⟩ := hread.completes (vs := answersOf ps) (by rw [hcount, hops])
  have hbytes := hread.rbufAt_answerAll (answersOf ps)
  rw [hdata] at hlog hbytes
  rw [hleft, ← List.append_assoc] at hlog
  have hlen : (((answersOf ps).drop (addrBytesOf r + 3)).take len.toNat).length = len.toNat := by
    rw [List.length_take, List.length_drop, hcount]; omega
  obtain ⟨u, n, hn, hrun, htu, hinu, hb, hst, hrsp⟩ :=
    runFor_completes (Tracks.refl (s := startRead off len r s) hout) hready hinputs hps hread.running hidle
  obtain ⟨hport, hulog⟩ := htu.of_idle hidle
  have hrbuf : ∀ i, u.rbufAt i =
      ((((answersOf ps).drop (addrBytesOf r + 3)).take len.toNat)[i]?).getD (s.rbufAt i) := fun i =>
    (rbufAt_congr (by rw [htu.env]) i).trans (hbytes i)
  refine ⟨startRead off len r s, u, n, _, admitTransfer_of_admits had _, hn, hrun, rfl, hulog.trans hlog, htu.phase.trans hidle,
    hb, hst, hrsp, hport, htu.handle.trans (answerAll_handle _ _ _), htu.latch.trans (answerAll_latch _ _ _), ?_, fun i hi => ?_,
    fun i hi => ?_⟩
  · rw [htu.env, answerAll_env, answerAll_env_of_idle hready hidle, hinu, ← hopen]; rfl
  · rw [hrbuf, List.getElem?_eq_getElem (by rw [hlen]; exact hi)]; rfl
  · rw [hrbuf, List.getElem?_eq_none (by rw [hlen]; exact hi)]; rfl

/-- Answers that return the first of `values` go on to answers that return all of them and end the command. -/
theorem exists_answers_returning {vs values : List Byte} {ahead : Nat} (hpre : vs.drop ahead <+: values)
    (hlen : vs.length < ahead + values.length + 1) :
    ∃ ws, ws ≠ [] ∧ vs.length + ws.length = ahead + values.length + 1 ∧ (vs ++ ws).drop ahead = values ++ [0] := by
  obtain ⟨more, rfl⟩ := hpre
  refine ⟨List.replicate (ahead - vs.length) 0 ++ (more ++ [0]), by simp, ?_, ?_⟩
  · simp only [List.length_append, List.length_replicate, List.length_singleton, List.length_drop] at hlen ⊢
    omega
  · rw [List.drop_append, List.drop_append]
    simp

/-- Settles O52. -/
theorem failedReadRunIsItsPseudocode : Obligations.FailedReadRunIsItsPseudocode := by
  intro s r off len ps p rest values hv hr hne hin hdev hopen hout hinputs hps hrst hans hpw hpr hcount hlen hpre
  have had : s.Admits r off len := ⟨hv, hr, hin, hne⟩
  obtain ⟨hread, hleft, hdata, hops⟩ := startRead_reading had
  have hready : Ready r (startRead off len r s) := ⟨hr, hdev, hopen⟩
  obtain ⟨ws, hws, hsum, hdrop⟩ := exists_answers_returning hpre (by omega)
  obtain ⟨-, hlog⟩ := hread.completes (vs := answersOf ps ++ ws) (by rw [List.length_append, hsum, hops]; omega)
  rw [hdata, hdrop, List.take_left' hlen, hleft, ← List.append_assoc] at hlog
  obtain ⟨o, ho, hcut⟩ := answerAll_throughOp hlog
    (by rw [opsOf_readEvents_length (record_dispatch hr), hsum]; omega) hws
  obtain ⟨u, hrun, hulog, hph, hb, hst, hrsp, hport, hh, hl, hrb, hwb, hinu⟩ :=
    runFor_fails (Tracks.refl (s := startRead off len r s) hout) hready hinputs hps hrst hans hpw hpr ho
  have hbytes : ∀ i, u.rbufAt i = (((answersOf ps).drop (addrBytesOf r + 3))[i]?).getD (s.rbufAt i) := fun i => by
    rw [rbufAt_congr hrb, hread.rbufAt_answerAll, hdata, List.take_of_length_le (by rw [List.length_drop]; omega)]; rfl
  refine ⟨startRead off len r s, u, admitTransfer_of_admits had _, hrun, by rw [hulog, hcut]; rfl, hph, hb, hst, hrsp, hport,
    hh, hl, hwb, hinu, fun i hi => ?_, fun i hi => ?_⟩
  · obtain ⟨more, rfl⟩ := hpre
    rw [hbytes, List.getElem?_append_left hi, List.getElem?_eq_getElem hi]; rfl
  · rw [hbytes, List.getElem?_eq_none hi]; rfl

end Sys2Proof.Machine
end

section
/-! SUPPORT. The translation bit by bit: the folded bits and the address bytes give the offset back (20_memory.md R45, R50 to
R52). -/

namespace Sys2Proof.Machine

/-! ## The folded bits -/

theorem foldBits_le {d : BitVec 16} {r : Rec} (h : dispatch d = some r) : r.foldBits.toNat ≤ 3 :=
  dispatch_forall (P := fun r => r.foldBits.toNat ≤ 3) (by decide) h

/-- `FOLD_MASK` covers the `FOLD_BITS` bits from bit 8 on (20_memory.md section 3). -/
theorem foldMask_getLsbD {d : BitVec 16} {r : Rec} (h : dispatch d = some r) (i : Nat) :
    r.foldMask.getLsbD i = decide (8 ≤ i ∧ i < 8 + r.foldBits.toNat) := by
  by_cases hi : i < 16
  · exact dispatch_forall (P := fun r => ∀ i < 16, r.foldMask.getLsbD i = decide (8 ≤ i ∧ i < 8 + r.foldBits.toNat))
      (by decide) h i hi
  · have := foldBits_le h
    rw [BitVec.getLsbD_of_ge _ _ (by omega), eq_comm, decide_eq_false_iff_not]
    omega

/-- The mask with which the device ignores the folded bits of a bus byte (20_memory.md R61). -/
theorem busMask_getLsbD {d : BitVec 16} {r : Rec} (h : dispatch d = some r) (i : Nat) :
    ((r.foldMask >>> 7).setWidth 8 : Byte).getLsbD i = decide (1 ≤ i ∧ i < 1 + r.foldBits.toNat) := by
  have := foldBits_le h
  rw [BitVec.getLsbD_setWidth, BitVec.getLsbD_ushiftRight, foldMask_getLsbD h, Bool.eq_iff_iff]
  simp only [Bool.and_eq_true, decide_eq_true_eq]
  omega

/-- Bit `i` of the folded part of a bus byte is bit `i + 7` of the offset (20_memory.md R50). -/
theorem fold_getLsbD {d : BitVec 16} {r : Rec} (h : dispatch d = some r) (off : Offset) (i : Nat) :
    (fold r off).getLsbD i = (decide (1 ≤ i ∧ i < 1 + r.foldBits.toNat) && off.getLsbD (i + 7)) := by
  have := foldBits_le h
  rcases i with _ | i
  · simp [fold]
  · rw [fold, BitVec.getLsbD_setWidth, BitVec.getLsbD_shiftLeft, BitVec.getLsbD_ushiftRight, BitVec.getLsbD_and,
      foldMask_getLsbD h, Nat.add_sub_cancel, show 8 + i = i + 1 + 7 by omega, Bool.eq_iff_iff]
    cases off.getLsbD (i + 1 + 7)
    · simp
    · simp only [Bool.and_eq_true, Bool.not_eq_true', decide_eq_true_eq, decide_eq_false_iff_not, true_and,
        and_true]
      omega

/-- The folded part depends on the 256-byte block only. -/
theorem fold_congr {d : BitVec 16} {r : Rec} (h : dispatch d = some r) {x y : Offset} (hxy : x.toNat / 256 = y.toNat / 256) :
    fold r x = fold r y := by
  refine BitVec.eq_of_getLsbD_eq fun i hi => ?_
  rw [fold_getLsbD h, fold_getLsbD h]
  rcases i with _ | i
  · rfl
  · rw [← BitVec.testBit_toNat, ← BitVec.testBit_toNat, show i + 1 + 7 = i + 8 by omega, ← Nat.testBit_div_two_pow,
      ← Nat.testBit_div_two_pow]
    exact congrArg (fun n => decide _ && Nat.testBit n i) hxy

theorem fold_of_two_bytes {d : BitVec 16} {r : Rec} (h : dispatch d = some r) (h2 : r.addrBytes = 2) (off : Offset) :
    fold r off = 0#8 := by
  have hmask : r.foldMask = 0 := dispatch_forall (P := fun r => r.addrBytes = 2 → r.foldMask = 0) (by decide) h h2
  simp [fold, hmask]

/-! ## The offset back from the bytes -/

theorem hiByte_toNat (off : Offset) : (hiByte off).toNat = off.toNat / 256 := by
  have := off.isLt
  rw [hiByte, BitVec.extractLsb'_toNat, Nat.shiftRight_eq_div_pow]
  omega

theorem loByte_toNat (off : Offset) : (loByte off).toNat = off.toNat % 256 := by
  rw [loByte, BitVec.extractLsb'_toNat]; rfl

/-- With one address byte the folded bits reach as far as the array (20_memory.md section 3). -/
theorem reachOf_le_folded {d : BitVec 16} {r : Rec} (h : dispatch d = some r) (h1 : r.addrBytes ≠ 2) :
    reachOf r ≤ 256 * 2 ^ r.foldBits.toNat :=
  dispatch_forall (P := fun r => r.addrBytes ≠ 2 → reachOf r ≤ 256 * 2 ^ r.foldBits.toNat) (by decide) h h1

/-- With one address byte the folded bits of the bus byte are the block of the offset, for a base with zeros there
(20_memory.md R52, R61). -/
theorem folded_block {d : BitVec 16} {r : Rec} (h : dispatch d = some r) (h1 : r.addrBytes ≠ 2) {base : Byte}
    (hbase : base &&& (r.foldMask >>> 7).setWidth 8 = 0#8) {off : Offset} (hoff : off.toNat < reachOf r) :
    (busAddr r base off >>> 1).toNat % 2 ^ r.foldBits.toNat = off.toNat / 256 := by
  have hreach := reachOf_le_folded h h1
  have hblock : off.toNat / 256 < 2 ^ r.foldBits.toNat := by
    rw [Nat.div_lt_iff_lt_mul (by decide)]; omega
  refine Nat.eq_of_testBit_eq fun i => ?_
  rw [Nat.testBit_mod_two_pow, BitVec.testBit_toNat, BitVec.getLsbD_ushiftRight, busAddr, BitVec.getLsbD_or, fold_getLsbD h,
    ← BitVec.testBit_toNat off, show 1 + i + 7 = i + 8 by omega, ← Nat.testBit_div_two_pow]
  by_cases hi : i < r.foldBits.toNat
  · have hzero : base.getLsbD (1 + i) = false := by
      have := congrArg (fun b : Byte => b.getLsbD (1 + i)) hbase
      simpa [busMask_getLsbD h, hi] using this
    simp [hi, hzero]
  · rw [Nat.testBit_lt_two_pow (Nat.lt_of_lt_of_le hblock (Nat.pow_le_pow_right (by decide) (by omega)))]
    simp [hi]

/-- Settles O11: the folded bits give the 256-byte block back, or the high byte does. -/
theorem translationIsInjective : Obligations.TranslationIsInjective := by
  refine ⟨fun d r b off h => ⟨fun h1 => ?_, fun h2 => ?_⟩, fun d r s x y h hbase hx hy hxy => ?_, fun r h => ?_,
    fun r h => ?_⟩
  · rw [xlate, addressBytes, if_neg (by rw [h1]; decide)]; rfl
  · rw [xlate, addressBytes, if_pos h2, busAddr, fold_of_two_bytes h h2, BitVec.or_zero]
  · obtain ⟨hbus, hbytes⟩ := Prod.mk.inj hxy
    have hblock : x.toNat / 256 = y.toNat / 256 ∧ loByte x = loByte y := by
      by_cases h2 : r.addrBytes = 2
      · simp only [addressBytes, if_pos h2, List.cons.injEq, and_true] at hbytes
        rw [← hiByte_toNat, ← hiByte_toNat, hbytes.1]
        exact ⟨rfl, hbytes.2⟩
      · simp only [addressBytes, if_neg h2, List.cons.injEq, and_true] at hbytes
        rw [← folded_block h h2 hbase hx, ← folded_block h h2 hbase hy, hbus]
        exact ⟨rfl, hbytes⟩
    have hlow := congrArg BitVec.toNat hblock.2
    rw [loByte_toNat, loByte_toNat] at hlow
    exact BitVec.eq_of_toNat_eq (by omega)
  · obtain rfl := Option.some.inj h; decide
  · obtain rfl := Option.some.inj h; decide

/-! ## Pages -/

theorem pageOf_dvd {d : BitVec 16} {r : Rec} (h : dispatch d = some r) : pageOf r ∣ 256 ∧ pageOf r ∣ reachOf r :=
  dispatch_forall (P := fun r => pageOf r ∣ 256 ∧ pageOf r ∣ reachOf r) (by decide) h

theorem exists_pageOf_eq_pow {d : BitVec 16} {r : Rec} (h : dispatch d = some r) : ∃ k, pageOf r = 2 ^ k := by
  obtain ⟨k, -, hk⟩ := dispatch_forall (P := fun r => ∃ k, k < 9 ∧ pageOf r = 2 ^ k) (by decide) h
  exact ⟨k, hk⟩

/-- What stays inside a block that a page size divides stays inside its page. -/
theorem div_eq_of_mod_add_lt {page n start i : Nat} (hn : page ∣ n) (h : start % page + i < page) :
    (start + i) / n = start / n := by
  obtain ⟨m, rfl⟩ := hn
  have hpage : (start + i) / page = start / page := by
    conv_lhs => rw [← Nat.div_add_mod start page, Nat.add_assoc, Nat.mul_add_div (by omega), Nat.div_eq_of_lt h]
    rfl
  rw [← Nat.div_div_eq_div_mul, ← Nat.div_div_eq_div_mul, hpage]

/-- Settles O12. -/
theorem pagesStayInsideBlocks : Obligations.PagesStayInsideBlocks := by
  intro d r h
  obtain ⟨h256, hreach⟩ := pageOf_dvd h
  refine ⟨exists_pageOf_eq_pow h, h256, hreach, fun start size i hsize hi => ?_⟩
  have hblock : (start + i) / 256 = start / 256 := div_eq_of_mod_add_lt h256 (by omega)
  refine ⟨hblock, fun b => congrArg (b ||| ·) (fold_congr h ?_)⟩
  rw [BitVec.toNat_ofNat, BitVec.toNat_ofNat]
  omega

end Sys2Proof.Machine
end

section
/-! SUPPORT. What the reference device does with each operation, said once (20_memory.md R61 to R64). -/

namespace Sys2Proof.Machine

/-! ## The reactions -/

section Reactions
variable {d : Device} {r : Rec}

theorem Device.respond_eq (h : dispatch d.density = some r) (o : TOp) : d.respond o = d.react r o := by
  unfold Device.respond; rw [h]

theorem Device.selected_iff (b : Byte) :
    d.selected r b = true ↔ b &&& 0xFE#8 &&& ~~~((r.foldMask >>> 7).setWidth 8) = d.strap ∧ d.wcycle = 0 := by
  simp [Device.selected, and_comm]

theorem Device.react_begin (b : Byte) :
    d.react r (.beginSession b) = if d.selected r b then .answered 0 (d.select r b) else .silent := rfl

theorem Device.react_address {hi : Nat} {first : Option Byte} (h : d.session = .address hi first) (v : Byte) :
    d.react r (.writeByte v) = .answered 0 (d.takeAddress r hi first v) := by
  simp [Device.react, h]

theorem Device.react_data {stored : Bool} (h : d.session = .data stored) (v : Byte) :
    d.react r (.writeByte v) = .answered 0 (d.store r v) := by
  simp [Device.react, h]

theorem Device.react_end (h : d.session ≠ .idle) : d.react r .endSession = .answered 0 (d.close r) := by
  unfold Device.react
  cases hs : d.session
  case idle => exact absurd hs h
  all_goals rfl

theorem Device.select_read {b : Byte} (h : b.getLsbD 0 = true) : d.select r b = { d with session := .reading } := by
  simp [Device.select, h]

theorem Device.select_write {b : Byte} (h : b.getLsbD 0 = false) :
    d.select r b = { d with session := .address ((b >>> 1).toNat % 2 ^ r.foldBits.toNat) none } := by
  rw [Device.select, h]; rfl

theorem Device.takeAddress_only (h : r.addrBytes ≠ 2) (hi : Nat) (a : Byte) :
    d.takeAddress r hi none a = { d with ac := hi * 256 + a.toNat, session := .data false } := if_neg h

theorem Device.takeAddress_high (h : r.addrBytes = 2) (hi : Nat) (a : Byte) :
    d.takeAddress r hi none a = { d with session := .address hi (some a) } := if_pos h

theorem Device.takeAddress_low (hi : Nat) (a1 a2 : Byte) :
    d.takeAddress r hi (some a1) a2 =
      { d with ac := (a1.toNat * 256 + a2.toNat) % capOf r, session := .data false } := rfl

theorem Device.store_of_lt (h : d.ac < capOf r) (v : Byte) : d.store r v =
    { d with
      mem := Memory.put d.mem d.ac v
      undo := (d.ac, Memory.get? d.mem d.ac) :: d.undo
      ac := Device.wrapInPage r d.ac
      session := .data true } := if_pos h

theorem Device.close_of_stored (h : d.session = .data true) : d.close r =
    { d with session := .idle, undo := [], wcycle := Config.writeCycleTime d.draws + 1, draws := d.draws + 1 } := by
  simp [Device.close, h]

theorem Device.close_of_not_stored (h : d.session = .data false) : d.close r = { d with session := .idle } := by
  simp [Device.close, h]

theorem Device.close_of_released (h : d.session = .released) : d.close r = { d with session := .idle } := by
  simp [Device.close, h]

@[simp] theorem Device.close_density (r : Rec) (d : Device) : (d.close r).density = d.density := by
  unfold Device.close; split <;> rfl
@[simp] theorem Device.close_mem (r : Rec) (d : Device) : (d.close r).mem = d.mem := by
  unfold Device.close; split <;> rfl

theorem Device.byteAt_congr {d' : Device} (hm : d'.mem = d.mem) (he : d'.epoch = d.epoch) (a : Nat) :
    d'.byteAt a = d.byteAt a := by
  unfold Device.byteAt; rw [hm, he]

/-- The stored byte reads back, and no other byte of the array changes (20_memory.md R63). -/
theorem Device.byteAt_store (h : d.ac < capOf r) (v : Byte) (a : Nat) :
    (d.store r v).byteAt a = if a = d.ac then v else d.byteAt a := by
  rw [Device.store_of_lt h]
  unfold Device.byteAt
  split
  · rename_i ha
    rw [ha, Memory.get?_put_same]; rfl
  · rename_i ha
    rw [Memory.get?_put_other _ _ ha]

theorem Device.readValue_of_lt (h : d.ac < capOf r) : d.readValue r = d.byteAt d.ac := if_pos h

end Reactions

/-- The counter stays in its page and goes on by one modulo the page (20_memory.md R63). -/
theorem wrapInPage_div_mod {r : Rec} (hpage : 0 < pageOf r) (ac : Nat) :
    Device.wrapInPage r ac / pageOf r = ac / pageOf r ∧ Device.wrapInPage r ac % pageOf r = (ac + 1) % pageOf r := by
  have hlt := Nat.mod_lt (ac + 1) hpage
  unfold Device.wrapInPage
  constructor
  · rw [Nat.mul_comm, Nat.mul_add_div hpage, Nat.div_eq_of_lt hlt, Nat.add_zero]
  · rw [Nat.mul_comm, Nat.mul_add_mod, Nat.mod_mod]

theorem Device.tick_iterate_wcycle (n : Nat) (d : Device) : (Device.tick^[n] d).wcycle = d.wcycle - n := by
  induction n generalizing d with
  | zero => rfl
  | succ n ih =>
    rw [Function.iterate_succ_apply, ih]
    show d.wcycle - 1 - n = d.wcycle - (n + 1)
    omega

theorem reachOf_le_capOf {d : BitVec 16} {r : Rec} (h : dispatch d = some r) : reachOf r ≤ capOf r :=
  dispatch_forall (P := fun r => reachOf r ≤ capOf r) (by decide) h

/-! ## The statements about one operation -/

/-- Settles O53. -/
theorem deviceStoresAndWrapsInThePage : Obligations.DeviceStoresAndWrapsInThePage := by
  intro d r v stored h hac hsess
  obtain ⟨hdiv, hmod⟩ := wrapInPage_div_mod (r := r) (by have := pageOf_bounds h; omega) d.ac
  refine ⟨d.store r v, ?_, ?_, fun a ha => ?_, ?_, ?_, by simp⟩
  · rw [Device.respond_eq h, Device.react_data hsess]
  · rw [Device.byteAt_store hac, if_pos rfl]
  · rw [Device.byteAt_store hac, if_neg ha]
  · rw [Device.store_ac, hdiv]
  · rw [Device.store_ac, hmod]

/-- Settles O54. -/
theorem deviceIsSelectedThenAddressed : Obligations.DeviceIsSelectedThenAddressed := by
  intro d r h
  have hbegin : ∀ b, d.respond (.beginSession b) = if d.selected r b then .answered 0 (d.select r b) else .silent :=
    fun b => Device.respond_eq h _
  refine ⟨fun b => ?_, fun b hb => ⟨d.select r b, ?_, rfl, rfl, fun h1 => ?_, fun h0 => ?_⟩, fun hi a h1 hsess => ?_,
    fun hi a1 a2 h2 hsess => ?_⟩
  · rw [hbegin, ← Device.selected_iff]
    split <;> simp [*]
  · rw [hbegin] at hb ⊢
    split at hb
    · rw [if_pos ‹_›]
    · exact absurd rfl hb
  · rw [Device.select_read h1]
  · rw [Device.select_write h0, BitVec.toNat_ushiftRight, Nat.shiftRight_eq_div_pow, Nat.pow_one]
  · refine ⟨d.takeAddress r hi none a, ?_, ?_⟩
    · rw [Device.respond_eq h, Device.react_address hsess]
    · rw [Device.takeAddress_only (by rw [h1]; decide)]
      exact ⟨rfl, rfl, rfl, rfl⟩
  · have hhigh := Device.takeAddress_high (d := d) h2 hi a1
    refine ⟨d.takeAddress r hi none a1, (d.takeAddress r hi none a1).takeAddress r hi (some a1) a2, ?_, ?_, ?_, ?_⟩
    · rw [Device.respond_eq h, Device.react_address hsess]
    · rw [hhigh]
    · rw [hhigh, Device.respond_eq (d := { d with session := .address hi (some a1) }) h, Device.react_address rfl]
    · rw [hhigh, Device.takeAddress_low]
      exact ⟨rfl, rfl, rfl, rfl⟩

/-- Settles O55: each step of the machine is one step less of the write cycle. -/
theorem writeCycleFollowsDataAndEnds : Obligations.WriteCycleFollowsDataAndEnds := by
  intro d r h
  have hend : d.session ≠ .idle → d.respond .endSession = .answered 0 (d.close r) := fun hopen => by
    rw [Device.respond_eq h, Device.react_end hopen]
  refine ⟨fun hsess => ?_, fun hsess => ?_⟩
  · have hcycle : (d.close r).wcycle ≠ 0 := by rw [Device.close_of_stored hsess]; exact Nat.succ_ne_zero _
    refine ⟨d.close r, hend (by simp [hsess]), by simp, hcycle, fun b => ?_, (d.close r).wcycle, ?_⟩
    · rw [Device.respond_eq (d := d.close r) (by simpa using h), Device.react_begin, if_neg]
      exact fun hsel => hcycle ((Device.selected_iff b).1 hsel).2
    · rw [Device.tick_iterate_wcycle, Nat.sub_self]
  · refine ⟨d.close r, hend (by simp [hsess]), by simp, ?_⟩
    rw [Device.close_of_not_stored hsess]
    exact ⟨rfl, rfl, rfl⟩

/-- Settles O56. -/
theorem deviceReadMovesOnByOne : Obligations.DeviceReadMovesOnByOne := by
  intro d r o h hsess hac ho
  have hcap := reachOf_le_capOf h
  have hreach := reachOf_le h
  refine ⟨d.afterRead r (if o = .readByteNak then .released else .reading), ?_, fun hlt => ?_,
    fun h1024 => ⟨?_, fun hlow => ?_⟩, rfl, Device.byteAt_congr rfl rfl, rfl, fun ho => by subst ho; rfl, fun ho => ?_⟩
  · rw [Device.respond_eq h, Device.react_read hsess ho, Device.readValue_of_lt hac]
  · exact Device.nextAc_of_lt (by omega) (.inr (by omega))
  · exact heldAc_lt ((dispatch_density h).trans h1024) _
  · have hcap1024 : capOf r = 131072 :=
      dispatch_forall (P := fun r => r.density = 1024 → capOf r = 131072) (by decide) h ((dispatch_density h).trans h1024)
    show d.nextAc r = _
    rw [Device.nextAc, if_pos (by omega), heldAc, if_pos ((dispatch_density h).trans h1024)]
  · subst ho
    refine ⟨rfl, ?_, ?_⟩ <;> rw [Device.respond_eq (d := d.afterRead r _) h] <;> rfl

end Sys2Proof.Machine
end

section
/-! SUPPORT. A run on the reference device: to the engine a device is an oracle that answers as it reacts (log 10), and a command
that its device answers, write cycles over, completes. -/

namespace Sys2Proof.Machine

/-! ## Inputs of a run -/

/-- Every step takes one sample off the list (log 3). -/
theorem step_inputs {s t : State} (h : step s = .next t) : t.env.inputs = s.env.inputs.tail := by
  cases stepTo_of_next h with
  | resets => simp [resetStep]
  | idles => rfl
  | completes => rfl
  | startsWrite => rfl
  | startsRead => rfl
  | waits => simp
  | fails => simp
  | done o v e r drives reply =>
    obtain ⟨dev, rfl, -⟩ := transportReply_done reply
    rw [doneState_env]
    split <;> simp

theorem runFor_inputs {n : Nat} {s u : State} (h : runFor n s = .next u) : u.env.inputs = s.env.inputs.drop n := by
  induction n generalizing s with
  | zero => rw [← Host.Outcome.next.inj h]; rfl
  | succ n ih =>
    rw [runFor] at h
    cases hs : step s with
    | next t =>
      rw [hs] at h
      rw [ih h, step_inputs hs, List.drop_tail]
    | fault => rw [hs] at h; cases h
    | refused => rw [hs] at h; cases h

theorem pins_harmless {s : State} (h : ∀ p ∈ s.env.inputs, p.harmless) : s.pins.harmless := by
  unfold State.pins
  cases hi : s.env.inputs with
  | nil => decide
  | cons p ps => exact h p (by simp [hi])

/-! ## A device is an oracle -/

/-- The state without its device. -/
def State.detached (s : State) : State := { s with env := { s.env with device := none } }

/-- The state with an oracle that answers `ans` in the place of its device. -/
def State.oracle (ans : Option Answer) (s : State) : State :=
  { s with env := { s.env with device := none, inputs := { s.pins with answer := ans } :: s.env.inputs.tail } }

theorem oracle_sample (ans : Option Answer) (s : State) : (s.oracle ans).sample = s.sample.detached := rfl

theorem issue_detached (o : TOp) (s : State) : s.detached.issue o = (s.issue o).detached := by
  unfold State.issue State.fetchData
  show (if s.outstanding = none then (if s.phase = .wData then _ else _ : State).drive o else _) = _
  split <;> [split; skip] <;> rfl

theorem oracle_answered (ans : Option Answer) (s : State) (o : TOp) (d : Device) :
    (s.oracle ans).answered o ((s.oracle ans).sample.env.afterDone o none) =
      (s.answered o (s.sample.env.afterDone o (some d))).detached := by
  unfold State.answered
  rw [oracle_sample, issue_detached]; rfl

/-- What an answer makes of the engine does not depend on the device. -/
theorem doneState_detached (r : Rec) (v : Byte) (s : State) : doneState r v s.detached = (doneState r v s).detached := by
  have hphase : s.detached.phase = s.phase := rfl
  cases hp : s.phase <;> simp only [doneState, hphase, hp]
  case wEnd =>
    by_cases hlast : s.dp.rem - s.dp.chunk.setWidth 16 = 0
    · rw [endChunk_of_last hlast, endChunk_of_last (s := s.detached) hlast]; rfl
    · rw [endChunk_of_left hlast, endChunk_of_left (s := s.detached) hlast]; rfl
  all_goals rfl

theorem transportReply_device_silent {p : Sample} {o : TOp} {e : Env} {d : Device} (hp : p.answer ≠ some .fail)
    (he : e.device = some d) (h : d.respond o = .silent) : transportReply p o e = .waiting := by
  unfold transportReply
  rcases ha : p.answer with _ | _ | _ <;> simp_all

theorem transportReply_device_answered {p : Sample} {o : TOp} {e : Env} {d d' : Device} {v : Byte} (hp : p.answer ≠ some .fail)
    (he : e.device = some d) (h : d.respond o = .answered v d') :
    transportReply p o e = .done v (e.afterDone o (some d')) := by
  unfold transportReply
  rcases ha : p.answer with _ | _ | _ <;> simp_all

/-- A driven step nobody answers. -/
theorem step_of_waiting {s : State} {o : TOp} (hd : s.Drives o) (h : transportReply s.pins o s.sample.env = .waiting) :
    step s = .next (s.sample.issue o) :=
  (step_of_drives hd).trans (settle_waiting (by rw [issue_env]; exact h))

/-- `s` is a state of a run on the device `d` whose answers so far have led to `a`, under inputs that leave the command alone. -/
structure OnDevice (r : Rec) (a s : State) (d : Device) : Prop where
  ready : Ready r a
  tracks : Tracks a s.detached
  device : s.env.device = some d
  density : dispatch d.density = some r
  harmless : ∀ p ∈ s.env.inputs, p.harmless

section OnDevice
variable {r : Rec} {a s : State} {d d' : Device} {o : TOp} {v : Byte}

theorem OnDevice.oracle (h : OnDevice r a s d) (ans : Option Answer) : Tracks a (s.oracle ans) where
  handle := h.tracks.handle
  latch := h.tracks.latch
  dp := h.tracks.dp
  phase := h.tracks.phase
  env := congrArg (fun e : Env => { e with inputs := (s.oracle ans).env.inputs }) h.tracks.env
  port := h.tracks.port

theorem OnDevice.oracle_drives (h : OnDevice r a s d) (ho : a.nextOp = some o) (ans : Option Answer) :
    (s.oracle ans).Drives o := by
  obtain ⟨hrst, -, hw, hr⟩ := pins_harmless h.harmless
  exact (h.oracle ans).drives h.ready ho hrst hw hr

/-- The run's step drives the operation the answers have led to. -/
theorem OnDevice.drives (h : OnDevice r a s d) (ho : a.nextOp = some o) : s.Drives o := by
  obtain ⟨hrst, hrun, hpend, hcon⟩ := h.oracle_drives ho none
  exact ⟨hrst, hrun, hpend, hcon⟩

theorem OnDevice.sample_device (h : OnDevice r a s d) (ho : a.nextOp = some o) : s.sample.env.device = some d.tick := by
  rw [sample_device_of_ne_idle (h.drives ho).running, h.device]; rfl

theorem OnDevice.step_harmless {t : State} (h : OnDevice r a s d) (hstep : step s = .next t) :
    ∀ p ∈ t.env.inputs, p.harmless := fun p hp => by
  rw [step_inputs hstep] at hp
  exact h.harmless p (List.mem_of_mem_tail hp)

/-- A step the device does not answer: the run waits where it is. -/
theorem OnDevice.step_silent (h : OnDevice r a s d) (ho : a.nextOp = some o) (hresp : d.tick.respond o = .silent) :
    ∃ t, step s = .next t ∧ OnDevice r a t d.tick := by
  obtain ⟨hrst, hfail, hw, hr⟩ := pins_harmless h.harmless
  obtain ⟨t, hstep, ht, -⟩ := (h.oracle none).step_silent h.ready ho ⟨hrst, nofun, hw, hr⟩ rfl
  have hwait : transportReply (s.oracle none).pins o (s.oracle none).sample.env = .waiting := rfl
  obtain rfl := Host.Outcome.next.inj (hstep.symm.trans (step_of_waiting (h.oracle_drives ho none) hwait))
  have hdev := h.sample_device ho
  have hstep' := step_of_waiting (h.drives ho) (transportReply_device_silent hfail hdev hresp)
  rw [oracle_sample, issue_detached] at ht
  exact ⟨_, hstep', h.ready, ht, by rw [issue_env, hdev], h.density, h.step_harmless hstep'⟩

/-- A step the device answers: the run follows. -/
theorem OnDevice.step_answered (h : OnDevice r a s d) (ho : a.nextOp = some o) (hresp : d.tick.respond o = .answered v d')
    (hdens : d'.density = d.density) : ∃ t, step s = .next t ∧ OnDevice r (answerOp r v a) t d' ∧
      (t.phase = .idle → t.busy = false ∧ t.status = .ok ∧ t.rsp = some .ok) := by
  obtain ⟨hrst, hfail, hw, hr⟩ := pins_harmless h.harmless
  obtain ⟨t, hstep, ht, -, hend⟩ := (h.oracle (some (.done v))).step_done h.ready ho ⟨hrst, nofun, hw, hr⟩ rfl
  have hrec : s.record = some r := (record_congr h.tracks.handle).trans h.ready.record
  have hdone : transportReply (s.oracle (some (.done v))).pins o (s.oracle (some (.done v))).sample.env =
      .done v ((s.oracle (some (.done v))).sample.env.afterDone o none) := rfl
  obtain rfl := Host.Outcome.next.inj (hstep.symm.trans (step_of_answeredDone (h.oracle_drives ho _) hdone hrec))
  have hstep' := step_of_answeredDone (h.drives ho) (transportReply_device_answered hfail (h.sample_device ho) hresp) hrec
  rw [oracle_answered _ _ _ d', doneState_detached] at ht hend
  refine ⟨_, hstep', ⟨h.ready.answerOp v, ht, ?_, hdens ▸ h.density, h.step_harmless hstep'⟩, hend⟩
  rw [doneState_env]
  split <;> rfl

end OnDevice

/-- What an answer makes of the cursors and the phase is what the phase's assignments make of them (10_state.md R21, R22). -/
theorem answerOp_registers (r : Rec) (v : Byte) {a : State} (hrun : a.phase ≠ .idle) :
    (answerOp r v a).dp = (doneState r v a).dp ∧ (answerOp r v a).phase = (doneState r v a).phase := by
  obtain ⟨o, ho⟩ := exists_nextOp hrun
  rw [answerOp_of_nextOp ho]
  unfold doneState
  rw [opDone_phase]
  cases hp : a.phase
  case wEnd =>
    dsimp only
    by_cases hlast : a.dp.rem - a.dp.chunk.setWidth 16 = 0
    · rw [endChunk_of_last hlast, endChunk_of_last (s := a.opDone o) hlast]; exact ⟨rfl, rfl⟩
    · rw [endChunk_of_left hlast, endChunk_of_left (s := a.opDone o) hlast]; exact ⟨rfl, rfl⟩
  all_goals exact ⟨rfl, rfl⟩

/-! ## A command on the device completes -/

/-- What the device does next in a run led by its answers: it is in a write cycle and does not answer, or it answers, and the run
goes on with fewer operations left or has ended. -/
def DeviceNext (r : Rec) (Going Ended : State → Device → Prop) (left : State → Nat) (a : State) (d : Device) : Prop :=
  ∃ o, a.nextOp = some o ∧ ((d.respond o = .silent ∧ d.wcycle ≠ 0) ∨
    ∃ v d', d.respond o = .answered v d' ∧ d'.density = d.density ∧
      ((Going (answerOp r v a) d' ∧ left (answerOp r v a) < left a) ∨
        ((answerOp r v a).phase = .idle ∧ Ended (answerOp r v a) d')))

/-- A command that goes on in this way ends: each wait is one step less of a write cycle. -/
theorem OnDevice.completes {r : Rec} {Going Ended : State → Device → Prop} {left : State → Nat}
    (htick : ∀ a d, Going a d → Going a d.tick) (hnext : ∀ a d, Going a d → DeviceNext r Going Ended left a d)
    {a s : State} {d : Device} (h : OnDevice r a s d) (hgo : Going a d) :
    ∃ n u a' d', runFor n s = .next u ∧ OnDevice r a' u d' ∧ a'.phase = .idle ∧ Ended a' d' ∧
      u.busy = false ∧ u.status = .ok ∧ u.rsp = some .ok := by
  obtain ⟨o, ho, ⟨hsilent, hcycle⟩ | ⟨v, d', hresp, hdens, hcase⟩⟩ := hnext a d.tick (htick a d hgo)
  · obtain ⟨t, hstep, ht⟩ := h.step_silent ho hsilent
    obtain ⟨n, u, a', d', hrun, hrest⟩ := OnDevice.completes htick hnext ht (htick a d hgo)
    exact ⟨n + 1, u, a', d', (runFor_succ hstep n).trans hrun, hrest⟩
  · obtain ⟨t, hstep, ht, hend⟩ := h.step_answered ho hresp hdens
    rcases hcase with ⟨hgo', hleft⟩ | ⟨hidle, hended⟩
    · obtain ⟨n, u, a', d', hrun, hrest⟩ := OnDevice.completes htick hnext ht hgo'
      exact ⟨n + 1, u, a', d', (runFor_succ hstep n).trans hrun, hrest⟩
    · exact ⟨1, t, _, d', runFor_succ hstep 0, ht, hidle, hended, hend (ht.tracks.phase.trans hidle)⟩
termination_by (left a, d.wcycle)
decreasing_by
  · exact Prod.Lex.right _ (Nat.sub_lt (Nat.pos_of_ne_zero fun h0 => hcycle (by simp [Device.tick, h0])) Nat.one_pos)
  · exact Prod.Lex.left _ _ hleft

/-- A command that has just started, on its device. -/
theorem onDevice_start {r : Rec} {t : State} {d : Device} (hr : t.record = some r) (hphase : t.phase.inSession = false)
    (hopen : t.env.sessionOpen = false) (hout : t.outstanding = none) (hdev : t.env.device = some d)
    (hdens : d.density = t.handle.density) (hin : ∀ p ∈ t.env.inputs, p.harmless) : OnDevice r t.detached t d where
  ready := ⟨hr, rfl, hopen.trans hphase.symm⟩
  tracks := .refl hout
  device := hdev
  density := by rw [hdens]; exact hr
  harmless := hin

/-- A command that has ended, on its device: idle, nothing on the port, no session open. -/
theorem OnDevice.ended {r : Rec} {a u : State} {d : Device} (h : OnDevice r a u d) (hidle : a.phase = .idle) :
    u.phase = .idle ∧ u.outstanding = none ∧ u.env.sessionOpen = false ∧ u.handle = a.handle ∧ u.env.wbuf = a.env.wbuf ∧
    u.env.rbuf = a.env.rbuf := by
  have henv : ∀ {α} (f : Env → α), f u.detached.env = f { a.env with inputs := u.env.inputs } :=
    fun f => congrArg f h.tracks.env
  refine ⟨h.tracks.phase.trans hidle, (h.tracks.of_idle hidle).1, ?_, h.tracks.handle, henv Env.wbuf, henv Env.rbuf⟩
  have hsession : u.env.sessionOpen = a.env.sessionOpen := henv Env.sessionOpen
  rw [hsession, h.ready.session, hidle]; rfl

end Sys2Proof.Machine
end

section
/-! SUPPORT. Selection and addressing of the reference device by the bytes the engine sends (20_memory.md R50 to R52, R61,
R62). -/

namespace Sys2Proof.Machine

/-! ## Selection -/

/-- A device at the handle's base answers to the bus byte of any offset (20_memory.md R61). -/
theorem busAddr_strap {d : BitVec 16} {r : Rec} (hr : dispatch d = some r) {s : State}
    (hbase : s.base &&& (r.foldMask >>> 7).setWidth 8 = 0#8) (off : Offset) :
    busAddr r s.base off &&& 0xFE#8 &&& ~~~((r.foldMask >>> 7).setWidth 8) = s.base := by
  refine BitVec.eq_of_getLsbD_eq fun i hi => ?_
  have hzero := congrArg (fun b : Byte => b.getLsbD i) hbase
  simp only [BitVec.getLsbD_and, busMask_getLsbD hr, BitVec.getLsbD_zero] at hzero
  rw [BitVec.getLsbD_and, BitVec.getLsbD_and, BitVec.getLsbD_not, busMask_getLsbD hr, busAddr, BitVec.getLsbD_or,
    fold_getLsbD hr]
  rcases i with _ | i
  · have heven : s.base.getLsbD 0 = false := by
      unfold State.base
      rw [BitVec.getLsbD_append]; rfl
    rw [heven]; rfl
  · have hone : (0xFE#8).getLsbD (i + 1) = true := (by decide : ∀ i < 7, (0xFE#8).getLsbD (i + 1) = true) i (by omega)
    rw [hone, decide_eq_true hi]
    cases hin : decide (1 ≤ i + 1 ∧ i + 1 < 1 + r.foldBits.toNat) with
    | false => simp only [Bool.false_and, Bool.or_false, Bool.and_true, Bool.not_false]
    | true =>
      rw [hin, Bool.and_true] at hzero
      simp only [hzero, Bool.not_true, Bool.and_false]

/-- The direction bit does not select (20_memory.md R61). -/
theorem readBit_masked (b : Byte) : (b ||| 0x01#8) &&& 0xFE#8 = b &&& 0xFE#8 := by
  revert b; decide

theorem Device.react_begin_busy {d : Device} (h : d.wcycle ≠ 0) (r : Rec) (b : Byte) :
    d.react r (.beginSession b) = .silent := by
  rw [Device.react_begin, if_neg]
  exact fun hsel => h ((Device.selected_iff b).1 hsel).2

section Selection
variable {d : Device} {r : Rec} {s : State} (hr : dispatch d.density = some r) (hstrap : d.strap = s.base)
  (hbase : s.base &&& (r.foldMask >>> 7).setWidth 8 = 0#8) (hfree : d.wcycle = 0) (off : Offset)
include hr hstrap hbase hfree

/-- The write session's `T.begin` opens the address phase, the folded bits those of the offset. -/
theorem Device.react_begin_write : d.react r (.beginSession (busAddr r s.base off)) = .answered 0
    { d with session := .address ((busAddr r s.base off >>> 1).toNat % 2 ^ r.foldBits.toNat) none } := by
  rw [Device.react_begin, if_pos ((Device.selected_iff _).2 ⟨(busAddr_strap hr hbase off).trans hstrap.symm, hfree⟩),
    Device.select_write (busAddr_even r s off)]

/-- The read session's `T.begin` opens the reads. -/
theorem Device.react_begin_read : d.react r (.beginSession (busAddr r s.base off ||| 0x01#8)) =
    .answered 0 { d with session := .reading } := by
  rw [Device.react_begin, if_pos, Device.select_read (busAddr_read_odd _)]
  rw [Device.selected_iff, readBit_masked]
  exact ⟨(busAddr_strap hr hbase off).trans hstrap.symm, hfree⟩

end Selection

/-! ## The address phase -/

/-- The device expects the last address byte of `off`. -/
def Device.AtLow (r : Rec) (off : Offset) (d : Device) : Prop :=
  if r.addrBytes = 2 then ∃ hi, d.session = .address hi (some (hiByte off)) else d.session = .address (off.toNat / 256) none

/-- With one address byte the `T.begin` of a write session has said the block: the device expects the low byte. -/
theorem Device.atLow_of_begin {d : Device} {r : Rec} {density : BitVec 16} (hr : dispatch density = some r)
    (h1 : r.addrBytes ≠ 2) {base : Byte} (hbase : base &&& (r.foldMask >>> 7).setWidth 8 = 0#8) {off : Offset}
    (hoff : off.toNat < reachOf r)
    (h : d.session = .address ((busAddr r base off >>> 1).toNat % 2 ^ r.foldBits.toNat) none) : d.AtLow r off := by
  rw [Device.AtLow, if_neg h1, h, folded_block hr h1 hbase hoff]

theorem Device.react_high {d : Device} {r : Rec} (h2 : r.addrBytes = 2) {hi : Nat} (h : d.session = .address hi none)
    (off : Offset) :
    d.react r (.writeByte (hiByte off)) = .answered 0 { d with session := .address hi (some (hiByte off)) } := by
  rw [Device.react_address h, Device.takeAddress_high h2]

/-- The last address byte sets the counter to the offset (20_memory.md R62). -/
theorem Device.react_low {d : Device} {r : Rec} (hr : dispatch d.density = some r) {off : Offset} (hoff : off.toNat < reachOf r)
    (h : d.AtLow r off) :
    d.react r (.writeByte (loByte off)) = .answered 0 { d with ac := off.toNat, session := .data false } := by
  have hcap := reachOf_le_capOf hr
  have hback : off.toNat / 256 * 256 + off.toNat % 256 = off.toNat := by omega
  unfold Device.AtLow at h
  split at h
  · obtain ⟨hi, h⟩ := h
    rw [Device.react_address h, Device.takeAddress_low, hiByte_toNat, loByte_toNat, hback, Nat.mod_eq_of_lt (by omega)]
  · rw [Device.react_address h, Device.takeAddress_only ‹_›, loByte_toNat, hback]

end Sys2Proof.Machine
end

section
/-! SUPPORT. A `WRITE` on the reference device (20_memory.md R65): in every phase of the run the device holds the bytes sent so
far. -/

namespace Sys2Proof.Machine

/-! ## The bytes in the device -/

/-- The device `d0` with the first `n` bytes of the `WBUF` of `s` stored from `off` on, and no other byte changed. -/
structure BytesWritten (s : State) (d0 : Device) (off n : Nat) (d : Device) : Prop where
  density : d.density = d0.density
  strap : d.strap = d0.strap
  wf : Memory.wf d.mem
  bytes : ∀ a, d.byteAt a = if off ≤ a ∧ a < off + n then s.wbufAt (a - off) else d0.byteAt a

theorem BytesWritten.congr {s : State} {d0 d d' : Device} {off n : Nat} (h : BytesWritten s d0 off n d)
    (hd : d'.density = d.density) (hs : d'.strap = d.strap) (hm : d'.mem = d.mem) (he : d'.epoch = d.epoch) :
    BytesWritten s d0 off n d' :=
  ⟨hd.trans h.density, hs.trans h.strap, hm ▸ h.wf, fun a => (Device.byteAt_congr hm he a).trans (h.bytes a)⟩

/-- The next byte of the request, stored at the counter. -/
theorem BytesWritten.store {s : State} {d0 d : Device} {r : Rec} {off n : Nat} (h : BytesWritten s d0 off n d)
    (hac : d.ac = off + n) (hcap : d.ac < capOf r) : BytesWritten s d0 off (n + 1) (d.store r (s.wbufAt n)) where
  density := (Device.store_density _ _ _).trans h.density
  strap := by rw [Device.store_of_lt hcap]; exact h.strap
  wf := Device.store_wf h.wf r _
  bytes := fun a => by
    rw [Device.byteAt_store hcap, h.bytes, hac]
    rcases Nat.lt_trichotomy a (off + n) with hlt | rfl | hgt
    · by_cases hoff : off ≤ a
      · rw [if_neg (by omega), if_pos ⟨hoff, hlt⟩, if_pos ⟨hoff, by omega⟩]
      · rw [if_neg (by omega), if_neg (by omega), if_neg (by omega)]
    · rw [if_pos rfl, if_pos (by omega), Nat.add_sub_cancel_left]
    · rw [if_neg (by omega), if_neg (by omega), if_neg (by omega)]

theorem wrapInPage_of_lt {r : Rec} {ac : Nat} (h : ac % pageOf r + 1 < pageOf r) : Device.wrapInPage r ac = ac + 1 := by
  have hmod : (ac + 1) % pageOf r = ac % pageOf r + 1 := by rw [← Nat.mod_add_mod, Nat.mod_eq_of_lt h]
  rw [Device.wrapInPage, hmod, ← Nat.add_assoc, Nat.mul_comm, Nat.div_add_mod]

/-! ## The run -/

/-- What the device expects in the phases of a `WRITE`. -/
def WriteExpects (r : Rec) (a : State) (d : Device) : Prop :=
  match a.phase with
  | .wBegin => d.session = .idle
  | .wAhi => ∃ hi, d.session = .address hi none
  | .wAlo => d.AtLow r a.dp.curOff
  | .wData => (∃ stored, d.session = .data stored) ∧ d.ac = a.dp.curOff.toNat + a.dp.k.toNat
  | .wEnd => d.session = .data true
  | _ => False

/-- What an engine in a `WRITE` keeps. -/
structure WriteKeeps (s a : State) : Prop where
  handle : a.handle = s.handle
  wbuf : a.env.wbuf = s.env.wbuf
  rbuf : a.env.rbuf = s.env.rbuf

/-- A `WRITE` of `len` bytes at `off` under way on the reference device, `IDX + K` of them sent. -/
structure WriteGoing (r : Rec) (s : State) (d0 : Device) (off len : Offset) (a : State) (d : Device) : Prop where
  keeps : WriteKeeps s a
  phase : a.phase.isWrite = true
  cursors : WriteInv r (a.withLatch { op := 0b10, cOff := off, cLen := len })
  written : BytesWritten s d0 off.toNat (a.dp.idx.toNat + a.dp.k.toNat) d
  expects : WriteExpects r a d

/-- The `WRITE` at its end. -/
structure WriteEnded (s : State) (d0 : Device) (off len : Offset) (a : State) (d : Device) : Prop where
  keeps : WriteKeeps s a
  written : BytesWritten s d0 off.toNat len.toNat d
  session : d.session = .idle

theorem WriteGoing.tick {r : Rec} {s : State} {d0 : Device} {off len : Offset} {a : State} {d : Device}
    (h : WriteGoing r s d0 off len a d) : WriteGoing r s d0 off len a d.tick :=
  ⟨h.keeps, h.phase, h.cursors, h.written.congr rfl rfl rfl rfl, h.expects⟩

/-- An answer takes one of the operations a `WRITE` has left. -/
theorem Writing.left_ops_lt {r : Rec} {s a : State} (h : Writing r s a) (v : Byte) :
    (opsOf (writeLeft r s (Machine.answerOp r v a))).length < (opsOf (writeLeft r s a)).length := by
  obtain ⟨o, ho⟩ := exists_nextOp h.running
  obtain ⟨events, hlog, -⟩ := answerOp_log ho r v
  have hleft := h.left_answerOp v
  rw [hlog, List.append_assoc, List.append_assoc, List.append_cancel_left_eq] at hleft
  rw [← hleft, opsOf_append, opsOf_append, opsOf_issueEvents]
  simp only [List.length_append, List.length_singleton]
  omega

/-- The device's next move in a `WRITE`. -/
abbrev WriteNext (r : Rec) (s : State) (d0 : Device) (off len : Offset) (a : State) (d : Device) : Prop :=
  DeviceNext r (WriteGoing r s d0 off len) (WriteEnded s d0 off len) (fun a => (opsOf (writeLeft r s a)).length) a d

theorem WriteKeeps.answerOp {s a : State} (h : WriteKeeps s a) (hp : a.phase ≠ .rData) (r : Rec) (v : Byte) :
    WriteKeeps s (answerOp r v a) where
  handle := (answerOp_handle r v a).trans h.handle
  wbuf := by rw [answerOp_env]; exact h.wbuf
  rbuf := by rw [answerOp_env, if_neg hp]; exact h.rbuf

section WriteGoing
variable {r : Rec} {s : State} {d0 : Device} {off len : Offset} {a : State} {d : Device}

/-- The cursors as numbers: what is sent of the request, and that the chunk stays in reach and in its page. -/
theorem WriteGoing.range (h : WriteGoing r s d0 off len a d) (hr : s.record = some r) :
    a.dp.curOff.toNat = off.toNat + a.dp.idx.toNat ∧ a.dp.idx.toNat + a.dp.rem.toNat = len.toNat ∧
    a.dp.curOff.toNat + a.dp.chunk.toNat ≤ reachOf r ∧ a.dp.curOff.toNat % pageOf r + a.dp.chunk.toNat ≤ pageOf r ∧
    1 ≤ a.dp.chunk.toNat ∧ a.dp.chunk.toNat ≤ a.dp.rem.toNat := by
  obtain ⟨hpos, hlt, hchunk, hrem, hchunk1⟩ := h.cursors.range (record_dispatch hr)
  have hin := h.cursors.inReach
  have hparts := h.cursors.parts
  have hcur := h.cursors.curOff
  simp only [withLatch_dp, withLatch_latch] at *
  refine ⟨hcur, hparts, ?_, ?_, hchunk1, ?_⟩ <;> omega

variable (hr : s.record = some r) (hdens : d0.density = s.handle.density)
include hr hdens

theorem WriteGoing.device_dispatch (h : WriteGoing r s d0 off len a d) : dispatch d.density = some r := by
  rw [h.written.density, hdens]; exact hr

/-- Where the device answers and the command goes on, the cursors are kept and an operation is taken: what is left to see to is
what the device holds and expects. -/
theorem WriteGoing.next_of_answered (h : WriteGoing r s d0 off len a d) {o : TOp} (ho : a.nextOp = some o) {v : Byte}
    {d' : Device} (hreact : d.react r o = .answered v d') (hrun : (answerOp r v a).phase ≠ .idle)
    (hwritten : BytesWritten s d0 off.toNat ((answerOp r v a).dp.idx.toNat + (answerOp r v a).dp.k.toNat) d')
    (hexpects : WriteExpects r (answerOp r v a) d') : WriteNext r s d0 off len a d := by
  have hw : Writing r s a :=
    ⟨h.keeps.handle, h.keeps.wbuf, (record_congr h.keeps.handle).trans hr, h.phase, _, h.cursors⟩
  have hcur : WriteInv r ((a.opDone o).withLatch { op := 0b10, cOff := off, cLen := len }) := h.cursors.congr rfl rfl rfl rfl
  have hnext := hcur.doneState (record_dispatch hw.record) v h.phase
  rw [doneState_withLatch, ← answerOp_of_nextOp ho] at hnext
  obtain ⟨hphase, hcursors⟩ := hnext.resolve_left hrun
  exact ⟨o, ho, .inr ⟨v, d', (Device.respond_eq (h.device_dispatch hr hdens) o).trans hreact,
    hwritten.density.trans h.written.density.symm,
    .inl ⟨⟨h.keeps.answerOp hw.ne_rData r v, hphase, hcursors, hwritten, hexpects⟩, hw.left_ops_lt v⟩⟩⟩

theorem WriteGoing.next_of_wBegin (h : WriteGoing r s d0 off len a d) (hstrap : d0.strap = s.base)
    (hbase : s.base &&& (r.foldMask >>> 7).setWidth 8 = 0#8) (hp : a.phase = .wBegin) : WriteNext r s d0 off len a d := by
  have hbus : a.dp.busb = busAddr r s.base a.dp.curOff := by
    rw [← base_congr (t := a.withLatch _) h.keeps.handle]; exact h.cursors.bus
  have ho : a.nextOp = some (.beginSession (busAddr r s.base a.dp.curOff)) := by simp [State.nextOp, hp, hbus]
  have hd := h.device_dispatch hr hdens
  obtain ⟨-, -, hreach, -, hchunk, -⟩ := h.range hr
  by_cases hfree : d.wcycle = 0
  · obtain ⟨hdp, hph⟩ := answerOp_registers r 0 (a := a) (by simp [hp])
    simp only [doneState_wBegin hp] at hdp hph
    refine h.next_of_answered hr hdens ho (Device.react_begin_write hd (h.written.strap.trans hstrap) hbase hfree _)
      (by rw [hph]; split <;> simp) (by rw [hdp]; exact h.written.congr rfl rfl rfl rfl) ?_
    rw [WriteExpects, hdp, hph]
    by_cases h2 : r.addrBytes = 2
    · rw [if_pos h2]; exact ⟨_, rfl⟩
    · rw [if_neg h2]; exact Device.atLow_of_begin hd h2 hbase (by omega) rfl
  · exact ⟨_, ho, .inl ⟨(Device.respond_eq hd _).trans (Device.react_begin_busy hfree r _), hfree⟩⟩

theorem WriteGoing.next_of_wAhi (h : WriteGoing r s d0 off len a d) (hp : a.phase = .wAhi) : WriteNext r s d0 off len a d := by
  have h2 := h.cursors.high hp
  obtain ⟨hi, hsess⟩ : ∃ hi, d.session = .address hi none := by simpa [WriteExpects, hp] using h.expects
  obtain ⟨hdp, hph⟩ := answerOp_registers r 0 (a := a) (by simp [hp])
  simp only [doneState_wAhi hp] at hdp hph
  refine h.next_of_answered hr hdens (by simp [State.nextOp, hp]) (Device.react_high h2 hsess a.dp.curOff)
    (by rw [hph]; simp) (by rw [hdp]; exact h.written.congr rfl rfl rfl rfl) ?_
  rw [WriteExpects, hdp, hph]
  exact (if_pos h2).mpr ⟨hi, rfl⟩

theorem WriteGoing.next_of_wAlo (h : WriteGoing r s d0 off len a d) (hp : a.phase = .wAlo) : WriteNext r s d0 off len a d := by
  have hlow : d.AtLow r a.dp.curOff := by simpa [WriteExpects, hp] using h.expects
  have hk : a.dp.k = 0 := by simpa [hp] using h.cursors.k
  obtain ⟨-, -, hreach, -, hchunk, -⟩ := h.range hr
  obtain ⟨hdp, hph⟩ := answerOp_registers r 0 (a := a) (by simp [hp])
  simp only [doneState_wAlo hp] at hdp hph
  refine h.next_of_answered hr hdens (by simp [State.nextOp, hp])
    (Device.react_low (h.device_dispatch hr hdens) (by omega) hlow) (by rw [hph]; simp)
    (by rw [hdp]; exact h.written.congr rfl rfl rfl rfl) ?_
  rw [WriteExpects, hdp, hph, hk]
  exact ⟨⟨false, rfl⟩, rfl⟩

theorem WriteGoing.next_of_wData (h : WriteGoing r s d0 off len a d) (hp : a.phase = .wData) : WriteNext r s d0 off len a d := by
  have hd := h.device_dispatch hr hdens
  have hcap := reachOf_le_capOf hd
  obtain ⟨hcur, hparts, hreach, hpage, -, hrem⟩ := h.range hr
  have hk : a.dp.k.toNat < a.dp.chunk.toNat := by simpa [hp, BitVec.lt_def] using h.cursors.k
  obtain ⟨⟨stored, hsess⟩, hac⟩ : (∃ stored, d.session = .data stored) ∧ d.ac = a.dp.curOff.toNat + a.dp.k.toNat := by
    simpa [WriteExpects, hp] using h.expects
  have hk1 : (a.dp.k + 1).toNat = a.dp.k.toNat + 1 := by
    have := a.dp.chunk.isLt
    rw [BitVec.toNat_add_of_lt] <;> simp; omega
  have hi : (a.dp.idx + a.dp.k.setWidth 16).toNat = a.dp.idx.toNat + a.dp.k.toNat := by
    have := len.isLt
    rw [BitVec.toNat_add, chunk_setWidth_toNat]; omega
  have ho : a.nextOp = some (.writeByte (s.wbufAt (a.dp.idx.toNat + a.dp.k.toNat))) := by
    simp [State.nextOp, hp, hi, wbufAt_congr h.keeps.wbuf]
  obtain ⟨hdp, hph⟩ := answerOp_registers r 0 (a := a) (by simp [hp])
  simp only [doneState_wData hp] at hdp hph
  refine h.next_of_answered hr hdens ho (Device.react_data hsess _) (by rw [hph]; split <;> simp) ?_ ?_
  · rw [hdp, show (a.dp.idx.toNat + (a.dp.k + 1).toNat) = a.dp.idx.toNat + a.dp.k.toNat + 1 by omega]
    exact h.written.store (by omega) (by omega)
  · rw [WriteExpects, hdp, hph]
    by_cases hlast : a.dp.k + 1 = a.dp.chunk
    · rw [if_pos hlast]; exact Device.store_session r _ d
    · have hlt : a.dp.k.toNat + 1 < a.dp.chunk.toNat := by
        have := mt BitVec.eq_of_toNat_eq hlast
        omega
      have hmod : d.ac % pageOf r = a.dp.curOff.toNat % pageOf r + a.dp.k.toNat := by
        rw [hac, ← Nat.mod_add_mod, Nat.mod_eq_of_lt (by omega)]
      rw [if_neg hlast]
      refine ⟨⟨true, Device.store_session r _ d⟩, ?_⟩
      rw [Device.store_ac, wrapInPage_of_lt (by omega), hac, hk1]; rfl

theorem WriteGoing.next_of_wEnd (h : WriteGoing r s d0 off len a d) (hp : a.phase = .wEnd) : WriteNext r s d0 off len a d := by
  have hk : a.dp.k = a.dp.chunk := by simpa [hp] using h.cursors.k
  have hsess : d.session = .data true := by simpa [WriteExpects, hp] using h.expects
  have hreact : d.react r .endSession = .answered 0 (d.close r) := Device.react_end (by simp [hsess])
  have hclosed := Device.close_of_stored (r := r) hsess
  have ho : a.nextOp = some .endSession := by simp [State.nextOp, hp]
  obtain ⟨-, hparts, -, -, -, hchunk⟩ := h.range hr
  obtain ⟨hrem, hadv⟩ := h.cursors.advance (record_dispatch hr)
  simp only [withLatch_dp] at hrem hadv
  have hwritten := h.written
  obtain ⟨hdp, hph⟩ := answerOp_registers r 0 (a := a) (by simp [hp])
  simp only [doneState_wEnd hp] at hdp hph
  by_cases hlast : a.dp.rem - a.dp.chunk.setWidth 16 = 0
  · rw [endChunk_of_last hlast] at hph
    rw [hlast] at hrem
    rw [hk, show a.dp.idx.toNat + a.dp.chunk.toNat = len.toNat by simp at hrem; omega] at hwritten
    refine ⟨_, ho, .inr ⟨0, d.close r, (Device.respond_eq (h.device_dispatch hr hdens) _).trans hreact, Device.close_density r d,
      .inr ⟨hph, h.keeps.answerOp (by simp [hp]) r 0, ?_, ?_⟩⟩⟩
    · rw [hclosed]; exact hwritten.congr rfl rfl rfl rfl
    · rw [hclosed]
  · rw [endChunk_of_left hlast] at hdp hph
    obtain ⟨-, hidx⟩ := hadv hlast
    refine h.next_of_answered hr hdens ho hreact (by rw [hph]; simp) ?_ ?_
    · rw [hdp, hclosed]
      show BytesWritten s d0 off.toNat ((a.dp.idx + a.dp.chunk.setWidth 16).toNat + 0) _
      rw [hidx, Nat.add_zero, ← hk]
      exact hwritten.congr rfl rfl rfl rfl
    · rw [WriteExpects, hph, hclosed]

/-- The device's next move in every phase of a `WRITE`. -/
theorem WriteGoing.next (h : WriteGoing r s d0 off len a d) (hstrap : d0.strap = s.base)
    (hbase : s.base &&& (r.foldMask >>> 7).setWidth 8 = 0#8) : WriteNext r s d0 off len a d := by
  have hphase := h.phase
  cases hp : a.phase <;> rw [hp] at hphase
  case wBegin => exact h.next_of_wBegin hr hdens hstrap hbase hp
  case wAhi => exact h.next_of_wAhi hr hdens hp
  case wAlo => exact h.next_of_wAlo hr hdens hp
  case wData => exact h.next_of_wData hr hdens hp
  case wEnd => exact h.next_of_wEnd hr hdens hp
  all_goals cases hphase

end WriteGoing

/-! ## The statement -/

theorem startWrite_going {r : Rec} {s : State} {off len : Offset} {d : Device} (had : s.Admits r off len)
    (hwf : Memory.wf d.mem) (hsess : d.session = .idle) : WriteGoing r s d off len (startWrite off len r s).detached d where
  keeps := ⟨rfl, rfl, rfl⟩
  phase := rfl
  cursors :=
    { inReach := had.inReach, parts := by simp [State.detached], bus := rfl, opcode := rfl, curOff := by simp [State.detached],
      left := had.moves, pos := rfl, chunk := rfl, high := (nomatch ·), k := rfl }
  written := ⟨rfl, rfl, hwf, fun a => (if_neg (by simp [State.detached])).symm⟩
  expects := hsess

/-- Settles O58. -/
theorem writeReachesTheDevice : Obligations.WriteReachesTheDevice := by
  intro s d r off len hv hr hne hreach hin hopen hout hdev hdens hstrap hsess hwf hbase
  have had : s.Admits r off len := ⟨hv, hr, hreach, hne⟩
  have hon : OnDevice r (startWrite off len r s).detached (startWrite off len r s) d :=
    onDevice_start hr rfl hopen hout hdev hdens hin
  obtain ⟨n, u, a', d', hrun, hu, hidle, ⟨hkeeps, hwritten, hclosed⟩, hb, hst, hrsp⟩ :=
    hon.completes (fun _ _ h => h.tick) (fun _ _ h => h.next hr hdens hstrap hbase) (startWrite_going had hwf hsess)
  obtain ⟨hph, hport, hsession, hh, hw, hrb⟩ := hu.ended hidle
  refine ⟨_, n, u, d', admitTransfer_of_admits had _, hrun, hph, hb, hst, hrsp, hh.trans hkeeps.handle, hw.trans hkeeps.wbuf,
    hrb.trans hkeeps.rbuf, (runFor_inputs hrun).trans rfl, hsession, hport, hu.device, hwritten.density, hwritten.strap, hclosed,
    hwritten.wf, fun i hi => ?_, fun a ha => ?_⟩
  · rw [hwritten.bytes, if_pos (by omega), Nat.add_sub_cancel_left]
  · rw [hwritten.bytes, if_neg (by omega)]

end Sys2Proof.Machine
end

section
/-! SUPPORT. A `READ` on the reference device (20_memory.md R64, R65): in every phase of the run the device's array is as it was
and `RBUF` holds the bytes received so far. -/

namespace Sys2Proof.Machine

/-! ## The run -/

/-- The same device with the same array: its counter, session and write cycle may differ. -/
structure SameArray (d0 d : Device) : Prop where
  density : d.density = d0.density
  strap : d.strap = d0.strap
  mem : d.mem = d0.mem
  epoch : d.epoch = d0.epoch

/-- What the device expects in the phases of a `READ`. -/
def ReadExpects (r : Rec) (a : State) (d : Device) : Prop :=
  match a.phase with
  | .rBeginW => d.session = .idle
  | .rAhi => ∃ hi, d.session = .address hi none
  | .rAlo => d.AtLow r a.dp.curOff
  | .rEndW => d.session = .data false ∧ d.ac = a.dp.curOff.toNat
  | .rBeginR => d.session = .idle ∧ d.ac = a.dp.curOff.toNat
  | .rData => d.session = .reading ∧ d.ac = a.dp.curOff.toNat + a.dp.idx.toNat
  | .rEnd => d.session = .released
  | _ => False

/-- The engine of `s` with the first `n` bytes of the array of `d0` from `off` on in its `RBUF`, and no other byte changed. -/
structure BytesRead (s : State) (d0 : Device) (off n : Nat) (a : State) : Prop where
  handle : a.handle = s.handle
  wbuf : a.env.wbuf = s.env.wbuf
  bytes : ∀ i, a.rbufAt i = if i < n then d0.byteAt (off + i) else s.rbufAt i

/-- A `READ` of `len` bytes at `off` under way on the reference device, `IDX` of them received. -/
structure ReadGoing (r : Rec) (s : State) (d0 : Device) (off len : Offset) (a : State) (d : Device) : Prop where
  running : a.phase ≠ .idle
  phase : a.phase.isWrite = false
  cursors : ReadInv r (a.withLatch { op := 0b11, cOff := off, cLen := len })
  array : SameArray d0 d
  received : BytesRead s d0 off.toNat a.dp.idx.toNat a
  expects : ReadExpects r a d

/-- The `READ` at its end. -/
structure ReadEnded (s : State) (d0 : Device) (off len : Offset) (a : State) (d : Device) : Prop where
  array : SameArray d0 d
  received : BytesRead s d0 off.toNat len.toNat a

theorem ReadGoing.tick {r : Rec} {s : State} {d0 : Device} {off len : Offset} {a : State} {d : Device}
    (h : ReadGoing r s d0 off len a d) : ReadGoing r s d0 off len a d.tick :=
  ⟨h.running, h.phase, h.cursors, ⟨h.array.density, h.array.strap, h.array.mem, h.array.epoch⟩, h.received, h.expects⟩

/-- The device's next move in a `READ`. -/
abbrev ReadNext (r : Rec) (s : State) (d0 : Device) (off len : Offset) (a : State) (d : Device) : Prop :=
  DeviceNext r (ReadGoing r s d0 off len) (ReadEnded s d0 off len) (opsLeft r) a d

/-- An answer that is no data byte leaves what is received as it was. -/
theorem BytesRead.answerOp {s a : State} {d0 : Device} {off n : Nat} (h : BytesRead s d0 off n a) (hp : a.phase ≠ .rData)
    (r : Rec) (v : Byte) : BytesRead s d0 off n (answerOp r v a) where
  handle := (answerOp_handle r v a).trans h.handle
  wbuf := by rw [answerOp_env]; exact h.wbuf
  bytes := fun i => by rw [← h.bytes, rbufAt_congr (s := a) (by rw [answerOp_env, if_neg hp])]

/-- A data byte is the next one received. -/
theorem BytesRead.answerOp_of_rData {s a : State} {d0 : Device} {off : Nat} (h : BytesRead s d0 off a.dp.idx.toNat a)
    (hp : a.phase = .rData) (r : Rec) :
    BytesRead s d0 off (a.dp.idx.toNat + 1) (Machine.answerOp r (d0.byteAt (off + a.dp.idx.toNat)) a) where
  handle := (answerOp_handle r _ a).trans h.handle
  wbuf := by rw [answerOp_env]; exact h.wbuf
  bytes := fun i => by
    rw [rbufAt_of_put (s := a) (by rw [answerOp_env, if_pos hp]), h.bytes]
    rcases Nat.lt_trichotomy i a.dp.idx.toNat with hlt | rfl | hgt
    · rw [if_neg (by omega), if_pos hlt, if_pos (by omega)]
    · rw [if_pos rfl, if_pos (by omega)]
    · rw [if_neg (by omega), if_neg (by omega), if_neg (by omega)]

section ReadGoing
variable {r : Rec} {s : State} {d0 : Device} {off len : Offset} {a : State} {d : Device}

/-- The cursors as numbers. -/
theorem ReadGoing.range (h : ReadGoing r s d0 off len a d) :
    a.dp.curOff = off ∧ a.dp.idx.toNat + a.dp.rem.toNat = len.toNat ∧ off.toNat + len.toNat ≤ reachOf r :=
  ⟨h.cursors.curOff, h.cursors.parts, h.cursors.inReach⟩

theorem ReadGoing.busb (h : ReadGoing r s d0 off len a d) : a.dp.busb = busAddr r s.base a.dp.curOff := by
  rw [← base_congr (t := a.withLatch _) h.received.handle]; exact h.cursors.bus

/-- Before the end something is left to receive, and the offset is in reach. -/
theorem ReadGoing.off_lt (h : ReadGoing r s d0 off len a d) (hp : a.phase ≠ .rEnd) : a.dp.curOff.toNat < reachOf r := by
  obtain ⟨hcur, hparts, hreach⟩ := h.range
  have hleft : a.dp.rem ≠ 0 := by
    have hleft := h.cursors.left
    cases hph : a.phase <;> simp_all
  have := offset_pos hleft
  rw [hcur]
  omega

variable (hr : s.record = some r) (hdens : d0.density = s.handle.density)
include hr hdens

theorem ReadGoing.device_dispatch (h : ReadGoing r s d0 off len a d) : dispatch d.density = some r := by
  rw [h.array.density, hdens]; exact hr

/-- Where the device answers and the command goes on, the cursors are kept and an operation is taken: what is left to see to is
what the device expects and what is received. -/
theorem ReadGoing.next_of_answered (h : ReadGoing r s d0 off len a d) (he : a.phase ≠ .rEnd) {o : TOp}
    (ho : a.nextOp = some o) {v : Byte} {d' : Device} (hreact : d.react r o = .answered v d') (harray : SameArray d d')
    (hreceived : BytesRead s d0 off.toNat (answerOp r v a).dp.idx.toNat (answerOp r v a))
    (hexpects : ReadExpects r (answerOp r v a) d') : ReadNext r s d0 off len a d := by
  have hreading : Reading r a := ⟨(record_congr h.received.handle).trans hr, h.running, h.phase, _, h.cursors⟩
  have hrun := (hreading.answerOp_of_ne_rEnd he v).running
  have hcur : ReadInv r ((a.opDone o).withLatch { op := 0b11, cOff := off, cLen := len }) := h.cursors.congr rfl rfl rfl rfl
  have hnext := hcur.doneState v h.running h.phase
  rw [doneState_withLatch, ← answerOp_of_nextOp ho] at hnext
  obtain ⟨hphase, hcursors⟩ := hnext.resolve_left hrun
  have hops := hreading.opsLeft_answerOp he v
  refine ⟨o, ho, .inr ⟨v, d', (Device.respond_eq (h.device_dispatch hr hdens) o).trans hreact, harray.density,
    .inl ⟨⟨hrun, hphase, hcursors, ?_, hreceived, hexpects⟩, by omega⟩⟩⟩
  exact ⟨harray.density.trans h.array.density, harray.strap.trans h.array.strap, harray.mem.trans h.array.mem,
    harray.epoch.trans h.array.epoch⟩

/-- A `T.begin` the device does not answer yet: its write cycle is still on. -/
theorem ReadGoing.next_of_busy (h : ReadGoing r s d0 off len a d) {b : Byte} (ho : a.nextOp = some (.beginSession b))
    (hbusy : d.wcycle ≠ 0) : ReadNext r s d0 off len a d :=
  ⟨_, ho, .inl ⟨(Device.respond_eq (h.device_dispatch hr hdens) _).trans (Device.react_begin_busy hbusy r b), hbusy⟩⟩

theorem ReadGoing.next_of_rBeginW (h : ReadGoing r s d0 off len a d) (hstrap : d0.strap = s.base)
    (hbase : s.base &&& (r.foldMask >>> 7).setWidth 8 = 0#8) (hp : a.phase = .rBeginW) : ReadNext r s d0 off len a d := by
  have ho : a.nextOp = some (.beginSession (busAddr r s.base a.dp.curOff)) := by simp [State.nextOp, hp, h.busb]
  have hd := h.device_dispatch hr hdens
  have hoff := h.off_lt (by simp [hp])
  by_cases hfree : d.wcycle = 0
  · obtain ⟨hdp, hph⟩ := answerOp_registers r 0 h.running
    simp only [doneState_rBeginW hp] at hdp hph
    refine h.next_of_answered hr hdens (by simp [hp]) ho
      (Device.react_begin_write hd (h.array.strap.trans hstrap) hbase hfree _) ⟨rfl, rfl, rfl, rfl⟩
      (by rw [hdp]; exact h.received.answerOp (by simp [hp]) r 0) ?_
    rw [ReadExpects, hdp, hph]
    by_cases h2 : r.addrBytes = 2
    · rw [if_pos h2]; exact ⟨_, rfl⟩
    · rw [if_neg h2]; exact Device.atLow_of_begin hd h2 hbase hoff rfl
  · exact h.next_of_busy hr hdens ho hfree

theorem ReadGoing.next_of_rAhi (h : ReadGoing r s d0 off len a d) (hp : a.phase = .rAhi) : ReadNext r s d0 off len a d := by
  have h2 := h.cursors.high hp
  obtain ⟨hi, hsess⟩ : ∃ hi, d.session = .address hi none := by simpa [ReadExpects, hp] using h.expects
  obtain ⟨hdp, hph⟩ := answerOp_registers r 0 h.running
  simp only [doneState_rAhi hp] at hdp hph
  refine h.next_of_answered hr hdens (by simp [hp]) (by simp [State.nextOp, hp]) (Device.react_high h2 hsess a.dp.curOff)
    ⟨rfl, rfl, rfl, rfl⟩ (by rw [hdp]; exact h.received.answerOp (by simp [hp]) r 0) ?_
  rw [ReadExpects, hdp, hph]
  exact (if_pos h2).mpr ⟨hi, rfl⟩

theorem ReadGoing.next_of_rAlo (h : ReadGoing r s d0 off len a d) (hp : a.phase = .rAlo) : ReadNext r s d0 off len a d := by
  have hlow : d.AtLow r a.dp.curOff := by simpa [ReadExpects, hp] using h.expects
  have hoff := h.off_lt (by simp [hp])
  obtain ⟨hdp, hph⟩ := answerOp_registers r 0 h.running
  simp only [doneState_rAlo hp] at hdp hph
  refine h.next_of_answered hr hdens (by simp [hp]) (by simp [State.nextOp, hp])
    (Device.react_low (h.device_dispatch hr hdens) hoff hlow) ⟨rfl, rfl, rfl, rfl⟩
    (by rw [hdp]; exact h.received.answerOp (by simp [hp]) r 0) ?_
  rw [ReadExpects, hdp, hph]
  exact ⟨rfl, rfl⟩

/-- The end of the dummy write: no data byte was sent, so the counter keeps the address and no write cycle starts. -/
theorem ReadGoing.next_of_rEndW (h : ReadGoing r s d0 off len a d) (hp : a.phase = .rEndW) : ReadNext r s d0 off len a d := by
  obtain ⟨hsess, hac⟩ : d.session = .data false ∧ d.ac = a.dp.curOff.toNat := by simpa [ReadExpects, hp] using h.expects
  have hreact : d.react r .endSession = .answered 0 (d.close r) := Device.react_end (by simp [hsess])
  rw [Device.close_of_not_stored hsess] at hreact
  obtain ⟨hdp, hph⟩ := answerOp_registers r 0 h.running
  simp only [doneState_rEndW hp] at hdp hph
  refine h.next_of_answered hr hdens (by simp [hp]) (by simp [State.nextOp, hp]) hreact ⟨rfl, rfl, rfl, rfl⟩
    (by rw [hdp]; exact h.received.answerOp (by simp [hp]) r 0) ?_
  rw [ReadExpects, hdp, hph]
  exact ⟨rfl, hac⟩

theorem ReadGoing.next_of_rBeginR (h : ReadGoing r s d0 off len a d) (hstrap : d0.strap = s.base)
    (hbase : s.base &&& (r.foldMask >>> 7).setWidth 8 = 0#8) (hp : a.phase = .rBeginR) : ReadNext r s d0 off len a d := by
  obtain ⟨hsess, hac⟩ : d.session = .idle ∧ d.ac = a.dp.curOff.toNat := by simpa [ReadExpects, hp] using h.expects
  have hidx : a.dp.idx = 0 := by
    have hleft := h.cursors.left
    simp only [withLatch_phase, hp] at hleft
    exact hleft.2
  have ho : a.nextOp = some (.beginSession (busAddr r s.base a.dp.curOff ||| 0x01#8)) := by simp [State.nextOp, hp, h.busb]
  by_cases hfree : d.wcycle = 0
  · obtain ⟨hdp, hph⟩ := answerOp_registers r 0 h.running
    simp only [doneState_rBeginR hp] at hdp hph
    refine h.next_of_answered hr hdens (by simp [hp]) ho
      (Device.react_begin_read (h.device_dispatch hr hdens) (h.array.strap.trans hstrap) hbase hfree _) ⟨rfl, rfl, rfl, rfl⟩
      (by rw [hdp]; exact h.received.answerOp (by simp [hp]) r 0) ?_
    rw [ReadExpects, hdp, hph, hidx]
    exact ⟨rfl, hac⟩
  · exact h.next_of_busy hr hdens ho hfree

/-- A read: the byte at the counter comes back, and the last one, not acknowledged, releases the bus. -/
theorem ReadGoing.next_of_rData (h : ReadGoing r s d0 off len a d) (hp : a.phase = .rData) : ReadNext r s d0 off len a d := by
  have hd := h.device_dispatch hr hdens
  have hcap := reachOf_le_capOf hd
  have hreach16 := reachOf_le hd
  obtain ⟨hcur, hparts, hreach⟩ := h.range
  obtain ⟨hsess, hac⟩ : d.session = .reading ∧ d.ac = a.dp.curOff.toNat + a.dp.idx.toNat := by
    simpa [ReadExpects, hp] using h.expects
  have hne : a.dp.rem ≠ 0 := by simpa [hp] using h.cursors.left
  obtain ⟨hidx, hrem⟩ := h.cursors.advance hne
  simp only [withLatch_dp] at hidx hrem
  have hpos := offset_pos hne
  rw [hcur] at hac
  have hvalue : d.readValue r = d0.byteAt (off.toNat + a.dp.idx.toNat) := by
    rw [Device.readValue_of_lt (by omega), Device.byteAt_congr h.array.mem h.array.epoch, hac]
  have ho : a.nextOp = some (if 1#16 < a.dp.rem then .readByteAck else .readByteNak) := by simp [State.nextOp, hp]
  have hreact := Device.react_read (r := r) (o := if 1#16 < a.dp.rem then .readByteAck else .readByteNak) hsess
    (by split <;> simp)
  obtain ⟨hdp, hph⟩ := answerOp_registers r (d.readValue r) h.running
  simp only [doneState_rData hp] at hdp hph
  refine h.next_of_answered hr hdens (by simp [hp]) ho hreact ⟨rfl, rfl, rfl, rfl⟩ ?_ ?_
  · rw [hdp]
    show BytesRead s d0 off.toNat (a.dp.idx + 1).toNat _
    rw [hidx, hvalue]
    exact h.received.answerOp_of_rData hp r
  · rw [ReadExpects, hdp, hph]
    by_cases hlast : a.dp.rem - 1 = 0
    · rw [if_pos hlast, if_neg (show ¬ 1#16 < a.dp.rem by bv_omega)]
      rfl
    · have hmore : 1 < a.dp.rem.toNat := by
        have := offset_pos hlast
        omega
      rw [if_neg hlast, if_pos (show 1#16 < a.dp.rem by bv_omega)]
      refine ⟨rfl, ?_⟩
      show d.nextAc r = a.dp.curOff.toNat + (a.dp.idx + 1).toNat
      rw [Device.nextAc_of_lt (by omega) (.inr (by omega)), hidx, hcur, hac, Nat.add_assoc]

theorem ReadGoing.next_of_rEnd (h : ReadGoing r s d0 off len a d) (hp : a.phase = .rEnd) : ReadNext r s d0 off len a d := by
  have hsess : d.session = .released := by simpa [ReadExpects, hp] using h.expects
  have hrem : a.dp.rem = 0 := by simpa [hp] using h.cursors.left
  have hparts := h.range.2.1
  have hreact : d.react r .endSession = .answered 0 (d.close r) := Device.react_end (by simp [hsess])
  rw [Device.close_of_released hsess] at hreact
  obtain ⟨-, hph⟩ := answerOp_registers r 0 h.running
  have hreceived := h.received.answerOp (by simp [hp]) r 0
  rw [show a.dp.idx.toNat = len.toNat by rw [hrem] at hparts; exact hparts] at hreceived
  exact ⟨.endSession, by simp [State.nextOp, hp], .inr ⟨0, _, (Device.respond_eq (h.device_dispatch hr hdens) _).trans hreact, rfl,
    .inr ⟨by rw [hph, doneState_rEnd hp]; rfl,
      ⟨h.array.density, h.array.strap, h.array.mem, h.array.epoch⟩, hreceived⟩⟩⟩

/-- The device's next move in every phase of a `READ`. -/
theorem ReadGoing.next (h : ReadGoing r s d0 off len a d) (hstrap : d0.strap = s.base)
    (hbase : s.base &&& (r.foldMask >>> 7).setWidth 8 = 0#8) : ReadNext r s d0 off len a d := by
  have hphase := h.phase
  cases hp : a.phase <;> rw [hp] at hphase
  case idle => exact absurd hp h.running
  case rBeginW => exact h.next_of_rBeginW hr hdens hstrap hbase hp
  case rAhi => exact h.next_of_rAhi hr hdens hp
  case rAlo => exact h.next_of_rAlo hr hdens hp
  case rEndW => exact h.next_of_rEndW hr hdens hp
  case rBeginR => exact h.next_of_rBeginR hr hdens hstrap hbase hp
  case rData => exact h.next_of_rData hr hdens hp
  case rEnd => exact h.next_of_rEnd hr hdens hp
  all_goals cases hphase

end ReadGoing

/-! ## The statements -/

theorem startRead_going {r : Rec} {s : State} {off len : Offset} {d : Device} (had : s.Admits r off len)
    (hsess : d.session = .idle) : ReadGoing r s d off len (startRead off len r s).detached d where
  running := by simp [State.detached]
  phase := rfl
  cursors :=
    { inReach := had.inReach, parts := by simp [State.detached], bus := rfl, opcode := rfl, curOff := rfl,
      high := (nomatch ·), left := ⟨had.moves, rfl⟩ }
  array := ⟨rfl, rfl, rfl, rfl⟩
  received := ⟨rfl, rfl, fun i => (if_neg (Nat.not_lt_zero i)).symm⟩
  expects := hsess

/-- Settles O59. -/
theorem readComesFromTheDevice : Obligations.ReadComesFromTheDevice := by
  intro s d r off len hv hr hne hreach hin hopen hout hdev hdens hstrap hsess hbase
  have had : s.Admits r off len := ⟨hv, hr, hreach, hne⟩
  have hon : OnDevice r (startRead off len r s).detached (startRead off len r s) d :=
    onDevice_start hr rfl hopen hout hdev hdens hin
  obtain ⟨n, u, a', d', hrun, hu, hidle, ⟨harray, hreceived⟩, hb, hst, hrsp⟩ :=
    hon.completes (fun _ _ h => h.tick) (fun _ _ h => h.next hr hdens hstrap hbase) (startRead_going had hsess)
  obtain ⟨hph, hport, hsession, hh, hw, hrb⟩ := hu.ended hidle
  refine ⟨_, n, u, d', admitTransfer_of_admits had _, hrun, hph, hb, hst, hrsp, hh.trans hreceived.handle,
    hw.trans hreceived.wbuf, (runFor_inputs hrun).trans rfl, hsession, hport, hu.device, harray.mem,
    Device.byteAt_congr harray.mem harray.epoch, fun i hi => ?_, fun i hi => ?_⟩
  · rw [rbufAt_congr hrb, hreceived.bytes, if_pos hi]
  · rw [rbufAt_congr hrb, hreceived.bytes, if_neg (by omega)]

/-- A transfer of no bytes completes `OK` at its acceptance (60_exceptions.md R186). -/
theorem admitTransfer_nothing {s : State} {r : Rec} {off : Offset} (hv : s.handle.hvalid = true) (hr : s.record = some r)
    (hreach : off.toNat ≤ reachOf r) (start : Rec → State → State) : admitTransfer off 0 start s = .next (complete .ok s) := by
  rw [admitTransfer_zero hr, if_neg (by simp [hv]), if_pos hreach]

/-- Settles O60: the `READ` runs on the device the `WRITE` leaves. -/
theorem writeThenReadRoundTrips : Obligations.WriteThenReadRoundTrips := by
  intro s d r off len hv hr hreach hin hopen hout hidle hdev hdens hstrap hsess hwf hbase
  by_cases hne : len = 0
  · subst hne
    have hnone : ∀ i, ¬ i < (0 : Offset).toNat := fun i => Nat.not_lt_zero i
    exact ⟨complete .ok s, 0, complete .ok s, complete .ok (complete .ok s), 0, complete .ok (complete .ok s), d,
      admitTransfer_nothing hv hr hreach _, rfl, rfl, rfl, rfl, hdev, fun i hi => absurd hi (hnone i), fun _ _ => rfl,
      admitTransfer_nothing (s := complete .ok s) hv hr hreach _, rfl, rfl, rfl, rfl, fun i hi => absurd hi (hnone i),
      fun i hi => absurd hi (hnone i)⟩
  · obtain ⟨t, n, u, d', hexec, hrun, hph, -, hst, hrsp, hh, -, -, hinu, hopenu, houtu, hdevu, hdens', hstrap', hsess', -,
      hwritten, hrest⟩ := writeReachesTheDevice s d r off len hv hr hne hreach hin hopen hout hdev hdens hstrap hsess hwf hbase
    have hbase' := base_congr hh
    obtain ⟨t', n', u', d'', hexec', hrun', hph', -, hst', hrsp', -, -, -, -, -, -, -, -, hread, -⟩ :=
      readComesFromTheDevice u d' r off len (by rw [hh]; exact hv) ((record_congr hh).trans hr) hne hreach
        (fun p hp => hin p (List.mem_of_mem_drop (hinu ▸ hp))) hopenu houtu hdevu (by rw [hdens', hdens, hh])
        (by rw [hstrap', hstrap, hbase']) hsess' (by rw [hbase']; exact hbase)
    exact ⟨t, n, u, t', n', u', d', hexec, hrun, hph, hst, hrsp, hdevu, hwritten, hrest, hexec', hrun', hph', hst', hrsp',
      hread, fun i hi => (hread i hi).trans (hwritten i hi)⟩

end Sys2Proof.Machine
end

section
/-! SUPPORT. The encoder, the decoder and the assembler against each other (30_encoding.md R72 to R77). -/

namespace Sys2Proof

/-! ## The fields of a word put together, and a word put together from its fields (30_encoding.md R72) -/

section Fields
variable (op : BitVec 2) (rsvd : BitVec 8) (base : Byte) (offset : Offset) (low : BitVec 16)

@[simp] theorem formatH_op : CmdWord.op (op ++ rsvd ++ base ++ low) = op := by
  rw [CmdWord.op, BitVec.extractLsb'_append_eq_of_le (by decide), BitVec.extractLsb'_append_eq_of_le (by decide)]
  exact BitVec.extractLsb'_append_eq_left

@[simp] theorem formatH_rsvd : CmdWord.rsvd (op ++ rsvd ++ base ++ low) = rsvd := by
  rw [CmdWord.rsvd, BitVec.extractLsb'_append_eq_of_le (by decide), BitVec.extractLsb'_append_eq_of_le (by decide)]
  exact BitVec.extractLsb'_append_eq_right

@[simp] theorem formatH_base : CmdWord.base (op ++ rsvd ++ base ++ low) = base := by
  rw [CmdWord.base, BitVec.extractLsb'_append_eq_of_le (by decide)]
  exact BitVec.extractLsb'_append_eq_right

@[simp] theorem formatH_low : CmdWord.low (op ++ rsvd ++ base ++ low) = low := BitVec.extractLsb'_append_eq_right

@[simp] theorem formatT_op : CmdWord.op (op ++ offset ++ low) = op := by
  rw [CmdWord.op, BitVec.extractLsb'_append_eq_of_le (by decide)]
  exact BitVec.extractLsb'_append_eq_left

@[simp] theorem formatT_offset : CmdWord.offset (op ++ offset ++ low) = offset := by
  rw [CmdWord.offset, BitVec.extractLsb'_append_eq_of_le (by decide)]
  exact BitVec.extractLsb'_append_eq_right

@[simp] theorem formatT_low : CmdWord.low (op ++ offset ++ low) = low := BitVec.extractLsb'_append_eq_right

end Fields

/-- The ten high bits of a word are `op` and the reserved field. -/
theorem op_append_rsvd (w : CmdWord) : CmdWord.op w ++ CmdWord.rsvd w = w.extractLsb' 24 10 :=
  BitVec.extractLsb'_append_extractLsb'_eq_extractLsb' rfl

theorem formatH_fields (w : CmdWord) : CmdWord.op w ++ CmdWord.rsvd w ++ CmdWord.base w ++ CmdWord.low w = w := by
  have hbase : w.extractLsb' 24 10 ++ CmdWord.base w = w.extractLsb' 16 18 :=
    BitVec.extractLsb'_append_extractLsb'_eq_extractLsb' rfl
  rw [op_append_rsvd, hbase]
  exact BitVec.extractLsb'_append_extractLsb'

theorem formatT_fields (w : CmdWord) : CmdWord.op w ++ CmdWord.offset w ++ CmdWord.low w = w := by
  have hoffset : CmdWord.op w ++ CmdWord.offset w = w.extractLsb' 16 18 :=
    BitVec.extractLsb'_append_extractLsb'_eq_extractLsb' rfl
  rw [hoffset]
  exact BitVec.extractLsb'_append_extractLsb'

/-! ## The rows of the opcode map (30_encoding.md R74) -/

theorem decode_of_op_zero {w : CmdWord} (h : CmdWord.op w = 0b00#2) : decode w = .error .reservedOpcode := if_pos h

theorem decode_of_op_one {w : CmdWord} (h : CmdWord.op w = 0b01#2) : decode w =
    if CmdWord.rsvd w = 0#8 then .ok (.createHandle (CmdWord.base w) (CmdWord.low w)) else .error .reservedField := by
  simp [decode, h]

theorem decode_of_op_two {w : CmdWord} (h : CmdWord.op w = 0b10#2) :
    decode w = .ok (.write (CmdWord.offset w) (CmdWord.low w)) := by simp [decode, h]

theorem decode_of_op_three {w : CmdWord} (h : CmdWord.op w = 0b11#2) :
    decode w = .ok (.read (CmdWord.offset w) (CmdWord.low w)) := by simp [decode, h]

theorem decodesToCreateHandle_iff (w : CmdWord) :
    (∃ b d, decode w = .ok (.createHandle b d)) ↔ CmdWord.op w = 0b01#2 ∧ CmdWord.rsvd w = 0#8 := by
  refine ⟨fun ⟨b, d, h⟩ => ?_, fun ⟨hop, hrsvd⟩ => ⟨_, _, (decode_of_op_one hop).trans (if_pos hrsvd)⟩⟩
  rcases Machine.decode_ok_cases h with ⟨hop, hrsvd, -⟩ | ⟨-, hi⟩ | ⟨-, hi⟩
  · exact ⟨hop, hrsvd⟩
  · cases hi
  · cases hi

theorem decodesToWrite_iff (w : CmdWord) : (∃ o l, decode w = .ok (.write o l)) ↔ CmdWord.op w = 0b10#2 :=
  ⟨fun ⟨_, _, h⟩ => (Machine.decode_write h).1, fun h => ⟨_, _, decode_of_op_two h⟩⟩

theorem decodesToRead_iff (w : CmdWord) : (∃ o l, decode w = .ok (.read o l)) ↔ CmdWord.op w = 0b11#2 :=
  ⟨fun ⟨_, _, h⟩ => (Machine.decode_read h).1, fun h => ⟨_, _, decode_of_op_three h⟩⟩

/-! ## The rows' masks -/

theorem append_eq_append_iff {n m : Nat} {x x' : BitVec n} {y y' : BitVec m} : x ++ y = x' ++ y' ↔ x = x' ∧ y = y' := by
  refine ⟨fun h => ⟨?_, ?_⟩, fun ⟨hx, hy⟩ => by rw [hx, hy]⟩
  · simpa [BitVec.extractLsb'_append_eq_left] using congrArg (BitVec.extractLsb' m n) h
  · simpa [BitVec.extractLsb'_append_eq_right] using congrArg (BitVec.extractLsb' 0 m) h

/-- A mask of the `n` high bits compares these bits and no others. -/
theorem and_highMask_eq_iff {n m : Nat} (w : BitVec (n + m)) (x : BitVec n) :
    w &&& (BitVec.allOnes n ++ 0#m) = x ++ 0#m ↔ w.extractLsb' m n = x := by
  have hand : w &&& (BitVec.allOnes n ++ 0#m) = w.extractLsb' m n ++ 0#m := by
    conv_lhs => rw [← BitVec.extractLsb'_append_extractLsb' (x := w)]
    rw [BitVec.and_append, BitVec.and_allOnes, BitVec.and_zero]
  rw [hand, BitVec.append_left_inj]

theorem and_opMask_eq_iff (w : CmdWord) (op : BitVec 2) : w &&& 0x300000000#34 = op ++ 0#32 ↔ CmdWord.op w = op :=
  and_highMask_eq_iff (n := 2) (m := 32) w op

theorem and_opRsvdMask_eq_iff (w : CmdWord) :
    w &&& 0x3FF000000#34 = 0x100000000#34 ↔ CmdWord.op w = 0b01#2 ∧ CmdWord.rsvd w = 0#8 := by
  have hmask : w &&& 0x3FF000000#34 = 0x100000000#34 ↔ w.extractLsb' 24 10 = 0b01#2 ++ 0#8 :=
    and_highMask_eq_iff (n := 10) (m := 24) w (0b01#2 ++ 0#8)
  rw [hmask, ← op_append_rsvd, append_eq_append_iff]

/-! ## The statements about the encoding -/

theorem decode_encode (i : Instr) : decode (encode i) = .ok i := by
  cases i with
  | createHandle base density =>
    rw [encode, decode_of_op_one (formatH_op ..), if_pos (formatH_rsvd ..), formatH_base, formatH_low]
  | write offset length => rw [encode, decode_of_op_two (formatT_op ..), formatT_offset, formatT_low]
  | read offset length => rw [encode, decode_of_op_three (formatT_op ..), formatT_offset, formatT_low]

/-- Settles O1: each field reads back what the encoder put there. -/
theorem decodeOfEncodeIsTheInstruction : Obligations.DecodeOfEncodeIsTheInstruction :=
  fun i _ => decode_encode i

/-- Settles O2, row by row: a word is its fields put together. -/
theorem encodeOfDecodeIsTheWord : Obligations.EncodeOfDecodeIsTheWord := by
  intro w i h
  rcases Machine.decode_ok_cases h with ⟨hop, hrsvd, rfl⟩ | ⟨hop, rfl⟩ | ⟨hop, rfl⟩
  · rw [encode, ← hop, ← hrsvd, formatH_fields]
  · rw [encode, ← hop, formatT_fields]
  · rw [encode, ← hop, formatT_fields]

/-- Settles O3: the decoder's rows by `op` and the reserved field, and what the masks compare. -/
theorem decoderMatchesExactlyOneRow : Obligations.DecoderMatchesExactlyOneRow := by
  intro w
  refine ⟨decode_of_op_zero, fun hop hrsvd => (decode_of_op_one hop).trans (if_pos hrsvd),
    fun hop hrsvd => (decode_of_op_one hop).trans (if_neg hrsvd), decode_of_op_two, decode_of_op_three, ?_, ?_, ?_⟩
  · rw [decodesToCreateHandle_iff, and_opRsvdMask_eq_iff]
  · rw [decodesToWrite_iff]
    exact and_opMask_eq_iff w 0b10
  · rw [decodesToRead_iff]
    exact and_opMask_eq_iff w 0b11

/-- Settles O4: four words are written out from the encoder's fields, two fall under a reserved row. -/
theorem specWordsDecode : Obligations.SpecWordsDecode :=
  ⟨decode_encode (.createHandle 0xA0 8), decode_encode (.createHandle 0xA1 16), decode_encode (.write 0x0000 20),
    decode_encode (.read 0x06AB 2), (decode_of_op_one rfl).trans (if_neg (by decide)), decode_of_op_zero rfl⟩

/-- Settles O5: the operands that fit are those the fields' widths keep. -/
theorem assemblerKeepsFittingOperandsOnly : Obligations.AssemblerKeepsFittingOperandsOnly := by
  intro c
  rw [AsmCmd.toInstr.eq_def]
  by_cases hfit : c.wellFormed = true
  · rw [if_pos hfit, if_pos hfit]
    cases c <;> simpa [Instr.toAsm, AsmCmd.wellFormed] using hfit
  · rw [if_neg hfit, if_neg hfit, Option.map_none]

end Sys2Proof
end

section
/-! SUPPORT. The legal densities, the bytes of an operation, and the response (30_encoding.md R71, R78 to R81). -/

namespace Sys2Proof.Machine

/-! ## The legal densities (30_encoding.md R78) -/

theorem exists_dispatch_iff (d : BitVec 16) : (∃ r, dispatch d = some r) ↔ ∃ k, k ≤ 10 ∧ d.toNat = 2 ^ k := by
  constructor
  · rintro ⟨r, h⟩
    obtain ⟨k, hk, hd⟩ := dispatch_forall (P := fun r => ∃ k, k < 11 ∧ r.density.toNat = 2 ^ k) (by decide) h
    exact ⟨k, by omega, by rw [← dispatch_density h, hd]⟩
  · rintro ⟨k, hk, hd⟩
    have hrow : ∀ k < 11, (dispatch (BitVec.ofNat 16 (2 ^ k))).isSome = true := by decide
    have hpow : d = BitVec.ofNat 16 (2 ^ k) := by rw [← hd, BitVec.ofNat_toNat, BitVec.setWidth_eq]
    rw [← Option.isSome_iff_exists, hpow]
    exact hrow k (by omega)

/-- Settles O6. -/
theorem legalDensitiesAreThePowersUpToTen : Obligations.LegalDensitiesAreThePowersUpToTen := by
  refine ⟨fun d => ⟨fun ⟨r, h, _⟩ => (exists_dispatch_iff d).1 ⟨r, h⟩, fun h => ?_⟩, fun d b s hno => ?_⟩
  · obtain ⟨r, hr⟩ := (exists_dispatch_iff d).2 h
    exact ⟨r, hr, dispatch_density hr⟩
  · rcases execCreateHandle_cases b d s with ⟨-, hexec⟩ | ⟨r, hr, -⟩
    · exact ⟨_, hexec, rfl⟩
    · exact absurd ((exists_dispatch_iff d).1 ⟨r, hr⟩) hno

/-! ## The bus address byte and the memory-address bytes (30_encoding.md R80, R81) -/

/-- The bus byte of a write session, or of a read session (`rw`), in bit 0. -/
theorem sessionByte_getLsbD_zero (r : Rec) (s : State) (off : Offset) (rw : Bool) :
    (if rw then busAddr r s.base off ||| 0x01#8 else busAddr r s.base off).getLsbD 0 = rw := by
  cases rw with
  | false => exact busAddr_even r s off
  | true => exact busAddr_read_odd _

/-- Above bit 0 both sessions have the base's bit, joined with the offset's where a bit is folded there. -/
theorem sessionByte_getLsbD_succ {d : BitVec 16} {r : Rec} (h : dispatch d = some r) (base : Byte) (off : Offset)
    (rw : Bool) (i : Nat) :
    (if rw then busAddr r base off ||| 0x01#8 else busAddr r base off).getLsbD (i + 1) =
      (base.getLsbD (i + 1) || (decide (i + 1 ≤ r.foldBits.toNat) && off.getLsbD (i + 8))) := by
  have hbus : (busAddr r base off).getLsbD (i + 1) =
      (base.getLsbD (i + 1) || (decide (i + 1 ≤ r.foldBits.toNat) && off.getLsbD (i + 8))) := by
    rw [busAddr, BitVec.getLsbD_or, fold_getLsbD h]
    congr 3
    simp only [eq_iff_iff]
    omega
  cases rw with
  | false => exact hbus
  | true => simpa [BitVec.getLsbD_one] using hbus

/-- The families with at least one, two and three folded bits (40_dispatch_and_handle.md R101). -/
theorem foldBits_of_family {d : BitVec 16} {r : Rec} (h : dispatch d = some r) :
    decide (1 ≤ r.foldBits.toNat) = (r.family = .B || r.family = .C || r.family = .D) ∧
    decide (2 ≤ r.foldBits.toNat) = (r.family = .C || r.family = .D) ∧
    decide (3 ≤ r.foldBits.toNat) = decide (r.family = .D) :=
  dispatch_forall
    (P := fun r => decide (1 ≤ r.foldBits.toNat) = (r.family = .B || r.family = .C || r.family = .D) ∧
      decide (2 ≤ r.foldBits.toNat) = (r.family = .C || r.family = .D) ∧
      decide (3 ≤ r.foldBits.toNat) = decide (r.family = .D))
    (by decide) h

/-- One address byte for families A to D, two for E to H (40_dispatch_and_handle.md R101). -/
theorem addrBytes_of_family {d : BitVec 16} {r : Rec} (h : dispatch d = some r) :
    (r.family = .A ∨ r.family = .B ∨ r.family = .C ∨ r.family = .D → r.addrBytes = 1) ∧
    (r.family = .E ∨ r.family = .F ∨ r.family = .G ∨ r.family = .H → r.addrBytes = 2) :=
  dispatch_forall
    (P := fun r => (r.family = .A ∨ r.family = .B ∨ r.family = .C ∨ r.family = .D → r.addrBytes = 1) ∧
      (r.family = .E ∨ r.family = .F ∨ r.family = .G ∨ r.family = .H → r.addrBytes = 2))
    (by decide) h

theorem hiByte_eq (off : Offset) : hiByte off = BitVec.ofNat 8 (off.toNat / 256) := by
  rw [← hiByte_toNat, BitVec.ofNat_toNat, BitVec.setWidth_eq]

theorem loByte_eq (off : Offset) : loByte off = BitVec.ofNat 8 (off.toNat % 256) := by
  rw [← loByte_toNat, BitVec.ofNat_toNat, BitVec.setWidth_eq]

/-- Settles O9, bit by bit: bits 1 to 3 may be folded, as the family has it, and no bit above them is. -/
theorem busAddressByteBitByBit : Obligations.BusAddressByteBitByBit := by
  intro s d r off rw h b
  obtain ⟨hone, htwo, hthree⟩ := foldBits_of_family h
  have hunfolded : ∀ i, 3 ≤ i → b.getLsbD (i + 1) = s.base.getLsbD (i + 1) := by
    intro i hi
    have hno : ¬ i + 1 ≤ r.foldBits.toNat := by have := foldBits_le h; omega
    simpa [hno] using sessionByte_getLsbD_succ h s.base off rw i
  refine ⟨sessionByte_getLsbD_zero r s off rw, ?_, ?_, ?_, hunfolded 3 (by decide), hunfolded 4 (by decide),
    hunfolded 5 (by decide), hunfolded 6 (by decide)⟩
  · rw [← hone]; exact sessionByte_getLsbD_succ h s.base off rw 0
  · rw [← htwo]; exact sessionByte_getLsbD_succ h s.base off rw 1
  · rw [← hthree]; exact sessionByte_getLsbD_succ h s.base off rw 2

/-- Settles O10: the columns row by row, and what the two bytes of an offset are. -/
theorem memoryAddressBytesHighFirst : Obligations.MemoryAddressBytesHighFirst := by
  intro d r off h
  obtain ⟨hone, htwo⟩ := addrBytes_of_family h
  refine ⟨fun hf => ⟨hone hf, ?_⟩, fun hf => ⟨htwo hf, ?_⟩, fun hd => ?_⟩
  · rw [addressBytes, hone hf, if_neg (by decide), loByte_eq]
  · rw [addressBytes, if_pos (htwo hf), hiByte_eq, loByte_eq]
  · subst hd
    obtain rfl := Option.some.inj h
    decide

/-! ## One response for each command (30_encoding.md R71) -/

/-- Settles O34, by the kinds of step: a step completes the command it runs or accepts and presents the response, or it
presents none, and then the engine stays idle with nothing offered or is busy after it. -/
theorem oneResponsePerCommand : Obligations.OneResponsePerCommand := by
  intro s t hinv hrst hstep
  have hbusy : s.phase ≠ .idle → s.busy = true := fun hrun => by rw [hinv.busy, decide_eq_true hrun]
  cases stepTo_of_next hstep with
  | resets rst => rw [hrst] at rst; cases rst
  | idles rst idle quiet =>
    refine iff_of_false (by simp) fun ⟨_, hcommand⟩ => ?_
    rcases hcommand with hb | ⟨w, -, -, hcmd⟩
    · rw [hinv.busy, idle] at hb; cases hb
    · rw [quiet] at hcmd; cases hcmd
  | completes w st hd offer => exact iff_of_true rfl ⟨rfl, .inr ⟨w, offer⟩⟩
  | startsWrite => exact iff_of_false (by simp) (by simp)
  | startsRead => exact iff_of_false (by simp) (by simp)
  | waits o drives => exact iff_of_false (by simp) (by simp [hbusy drives.running])
  | fails o drives => exact iff_of_true rfl ⟨rfl, .inl (hbusy drives.running)⟩
  | done o v e r drives =>
    rcases doneState_completion (s := s.answered o e) r v (by simpa using drives.running) with
      ⟨-, hb, -, hrsp⟩ | ⟨-, hb, -, hrsp⟩
    · exact iff_of_false (by simp [hrsp]) (by simp [hb, hbusy drives.running])
    · exact iff_of_true (by simp [hrsp]) ⟨hb, .inl (hbusy drives.running)⟩

end Sys2Proof.Machine
end

section
/-! SUPPORT. The dispatch table's facts, the command `CREATE_HANDLE`, and who writes the handle (40_dispatch_and_handle.md R103,
R110 to R112). -/

namespace Sys2Proof.Machine

/-! ## What CREATE_HANDLE, and a transfer without a handle, answer -/

theorem exec_createHandle_of_legal {d : BitVec 16} {r : Rec} (h : dispatch d = some r) (b : Byte) (s : State) :
    exec (.createHandle b d) s = .next (complete .ok (s.storeHandle b d)) := by
  simp [exec, execCreateHandle, h]

theorem exec_createHandle_of_illegal {d : BitVec 16} (h : dispatch d = none) (b : Byte) (s : State) :
    exec (.createHandle b d) s = .next (raise .errConfig s.invalidateHandle) := by
  simp [exec, execCreateHandle, h]

/-- A transfer's acceptance is the checks of 60_exceptions.md R186, with a start of its own behind them. -/
theorem exec_transfer {i : Instr} {off len : Offset} (hi : i = .write off len ∨ i = .read off len) (s : State) :
    ∃ start, exec i s = admitTransfer off len start s := by
  rcases hi with rfl | rfl
  · exact ⟨startWrite off len, rfl⟩
  · exact ⟨startRead off len, rfl⟩

theorem exec_transfer_of_no_handle {i : Instr} {off len : Offset} (hi : i = .write off len ∨ i = .read off len) {s : State}
    (hv : s.handle.hvalid = false) : exec i s = .next (raise .errNoHandle s) := by
  obtain ⟨start, hexec⟩ := exec_transfer hi s
  simp [hexec, admitTransfer, hv]

/-! ## Who writes the handle -/

/-- No command other than `CREATE_HANDLE` writes the handle at its acceptance (40_dispatch_and_handle.md R112 (a)). -/
theorem exec_handle {i : Instr} {s t : State} (h : exec i s = .next t) :
    (∃ b d, i = .createHandle b d) ∨ t.handle = s.handle := by
  cases i with
  | createHandle b d => exact .inl ⟨b, d, rfl⟩
  | write off len => rcases admitTransfer_next h with ⟨st, rfl⟩ | ⟨r, -, rfl⟩ <;> exact .inr rfl
  | read off len => rcases admitTransfer_next h with ⟨st, rfl⟩ | ⟨r, -, rfl⟩ <;> exact .inr rfl

/-- Nor does a reserved word, which runs no command. -/
theorem acceptStep_handle {w : CmdWord} {s t : State} (h : acceptStep w s = .next t) :
    (∃ b d, decode w = .ok (.createHandle b d)) ∨ t.handle = s.handle := by
  unfold acceptStep at h
  cases hdec : decode w with
  | error e =>
    rw [hdec] at h
    obtain rfl := Host.Outcome.next.inj h
    exact .inr rfl
  | ok i =>
    rw [hdec] at h
    rcases exec_handle h with ⟨b, d, rfl⟩ | hkeep
    · exact .inl ⟨b, d, rfl⟩
    · exact .inr hkeep

/-- By the kinds of step: outside an acceptance and a reset the handle stays as it is. -/
theorem step_handle {s t : State} (hstep : step s = .next t) (hrst : s.pins.rst = false) :
    (∃ w b d, s.offers w ∧ decode w = .ok (.createHandle b d)) ∨ t.handle = s.handle := by
  cases stepTo_of_next hstep with
  | resets rst => rw [hrst] at rst; cases rst
  | idles => exact .inr rfl
  | completes w st hd offer =>
    rw [step_of_offers offer] at hstep
    rcases acceptStep_handle hstep with ⟨b, d, hdec⟩ | hkeep
    · exact .inl ⟨w, b, d, offer, hdec⟩
    · exact .inr hkeep
  | startsWrite => exact .inr rfl
  | startsRead => exact .inr rfl
  | waits => exact .inr (by simp)
  | fails => exact .inr (by simp)
  | done => exact .inr (by simp)

theorem step_of_reset {s : State} (h : s.pins.rst = true) : step s = .next (resetStep s.pins s.sample) := by
  simp [step, engineStep, h]

/-- Settles O31. While a transfer runs no word is offered, so nothing but a reset can write the handle. -/
theorem handleIsWrittenByCreateAndResetOnly : Obligations.HandleIsWrittenByCreateAndResetOnly := by
  refine ⟨fun s t hstep hrst => ?_, fun s t => step_handle, fun s t hstep hrst hrun => ?_,
    fun s w b d r hoff hdec hd => ?_⟩
  · rw [step_of_reset hrst] at hstep
    obtain rfl := Host.Outcome.next.inj hstep
    rfl
  · exact (step_handle hstep hrst).resolve_left fun ⟨_, _, _, ⟨_, hidle, _⟩, _⟩ => hrun hidle
  · refine ⟨complete .ok ((s.sample.accept w).storeHandle b d), ?_, rfl, storeHandle_base s b d, rfl⟩
    rw [step_of_offers hoff, acceptStep, hdec]
    exact exec_createHandle_of_legal hd b _

/-! ## The statements about CREATE_HANDLE -/

/-- A command completed at its acceptance leaves the sampled state, but for the handle, the latch, `STATUS` and the response:
an idle engine's phase stays `IDLE` (10_state.md R23). -/
theorem complete_accept_of_idle {s : State} (hidle : s.phase = .idle) (w : CmdWord) (st : Status) (hd : Handle) :
    complete st { s.sample.accept w with handle := hd } = { s.sample with
      handle := hd
      latch := { op := CmdWord.op w, cOff := CmdWord.offset w, cLen := CmdWord.low w }
      busy := false
      status := st
      rsp := some st
      log := s.log ++ [.response st] } := by
  simp [complete, State.accept, hidle]

/-- Settles O16: a word with `op = 1` is reserved, or it is a `CREATE_HANDLE` whose density is illegal or legal. -/
theorem createHandleWordOutcomes : Obligations.CreateHandleWordOutcomes := by
  intro s w hoff hop
  have ⟨_, hidle, _⟩ := hoff
  have hframe := complete_accept_of_idle hidle w
  rw [step_of_offers hoff, acceptStep, decode_of_op_one hop]
  by_cases hrsvd : CmdWord.rsvd w = 0#8
  · rw [if_pos hrsvd]
    cases hd : dispatch (CmdWord.low w) with
    | none =>
      exact ⟨_, exec_createHandle_of_illegal hd _ _, hframe _ _, fun h => absurd hrsvd h, fun _ _ => ⟨rfl, rfl⟩,
        fun _ h => nomatch h⟩
    | some r =>
      exact ⟨_, exec_createHandle_of_legal hd _ _, hframe _ _, fun h => absurd hrsvd h, fun _ h => (nomatch h),
        fun _ _ => ⟨rfl, rfl, storeHandle_base s _ _, rfl, hd⟩⟩
  · rw [if_neg hrsvd]
    exact ⟨_, rfl, hframe _ _, fun _ => ⟨rfl, rfl⟩, fun h => absurd h hrsvd, fun h => absurd h hrsvd⟩

/-- Settles O17. -/
theorem createHandleCompletes : Obligations.CreateHandleCompletes := by
  intro s base density r h
  exact ⟨_, exec_createHandle_of_legal h base s, rfl, rfl, storeHandle_base s base density, rfl, h⟩

/-- Settles O18: `HVALID = 0` after the error, so the first check of any transfer fails, and no operation is issued. -/
theorem illegalDensityInvalidatesTheHandle : Obligations.IllegalDensityInvalidatesTheHandle := by
  intro s base density h
  refine ⟨_, exec_createHandle_of_illegal h base s, rfl, fun i off len hi => ?_⟩
  exact ⟨_, exec_transfer_of_no_handle hi rfl, rfl, by simp [opsOf]⟩

/-! ## The dispatch table (40_dispatch_and_handle.md R103) -/

/-- Facts (b), (c) and (e), row by row. -/
theorem foldBits_addrBytes_of_dispatch {d : BitVec 16} {r : Rec} (h : dispatch d = some r) :
    (r.foldBits ≠ 0 ↔ d = 4 ∨ d = 8 ∨ d = 16) ∧ (r.foldBits ≠ 0 → r.foldBits.toNat = Nat.log2 d.toNat - 1) ∧
    (r.addrBytes = 2 ↔ 32 ≤ d.toNat) ∧ Nat.log2 (reachOf r) ≤ 8 * addrBytesOf r + r.foldBits.toNat ∧
    reachOf r ≤ 2 ^ (8 * addrBytesOf r + r.foldBits.toNat) := by
  rw [← dispatch_density h]
  exact dispatch_forall
    (P := fun r => (r.foldBits ≠ 0 ↔ r.density = 4 ∨ r.density = 8 ∨ r.density = 16) ∧
      (r.foldBits ≠ 0 → r.foldBits.toNat = Nat.log2 r.density.toNat - 1) ∧ (r.addrBytes = 2 ↔ 32 ≤ r.density.toNat) ∧
      Nat.log2 (reachOf r) ≤ 8 * addrBytesOf r + r.foldBits.toNat ∧
      reachOf r ≤ 2 ^ (8 * addrBytesOf r + r.foldBits.toNat))
    (by decide) h

/-- Fact (d), for any two rows. -/
theorem pageOf_mono {d d' : BitVec 16} {r r' : Rec} (h : dispatch d = some r) (h' : dispatch d' = some r')
    (hle : d.toNat ≤ d'.toNat) : pageOf r ≤ pageOf r' := by
  have hrows : ∀ r ∈ dispatchTable, ∀ r' ∈ dispatchTable, r.density.toNat ≤ r'.density.toNat → pageOf r ≤ pageOf r' := by
    decide
  rw [← dispatch_density h, ← dispatch_density h'] at hle
  exact hrows r (dispatch_mem h) r' (dispatch_mem h') hle

/-- Settles O7. -/
theorem dispatchTableFacts : Obligations.DispatchTableFacts := by
  refine ⟨fun d => Option.isSome_iff_exists.trans (exists_dispatch_iff d), fun d r => foldBits_addrBytes_of_dispatch,
    fun d d' r r' => pageOf_mono, by decide, by decide, by decide, fun r h => ?_⟩
  obtain rfl := Option.some.inj h
  decide

end Sys2Proof.Machine
end

section
/-! SUPPORT. The chunks of a `WRITE` in closed form, and the size of its trace (41_write.md R122, R123, R130). -/

namespace Sys2Proof.Machine

/-! ## Where chunks begin and end -/

/-- Induction over the chunks of a transfer: none are left, or a chunk comes before those of the rest. -/
theorem chunks_induction {page : Nat} (hpage : 0 < page) {P : Nat → Nat → List (Nat × Nat) → Prop}
    (nil : ∀ start, P start 0 [])
    (cons : ∀ start rem rest, 0 < rem →
      P (start + min (page - start % page) rem) (rem - min (page - start % page) rem) rest →
      P start rem ((start, min (page - start % page) rem) :: rest))
    (start rem : Nat) : P start rem (chunks page start rem) := by
  induction rem using Nat.strong_induction_on generalizing start with
  | _ rem ih =>
    rcases Nat.eq_zero_or_pos rem with rfl | hrem
    · exact nil start
    · have hlt : start % page < page := Nat.mod_lt _ hpage
      rw [chunks_cons hpage hrem]
      exact cons _ _ _ hrem (ih _ (by omega) _)

/-- A chunk that does not end the transfer ends where the next page begins. -/
theorem chunk_end_of_left {page start rem : Nat} (hpage : 0 < page) (h : 0 < rem - min (page - start % page) rem) :
    start + min (page - start % page) rem = (start / page + 1) * page := by
  have hlt : start % page < page := Nat.mod_lt _ hpage
  have hdiv : start / page * page + start % page = start := Nat.div_add_mod' _ _
  rw [Nat.succ_mul]
  omega

/-- Settles O44: a chunk ends with its page or with the request, and the rest is a transfer that ends where the whole one does. -/
theorem noChunkCrossesAPage : Obligations.NoChunkCrossesAPage := by
  intro page off len hpage
  refine chunks_induction hpage (P := fun off len l => ∀ c ∈ l,
    1 ≤ c.2 ∧ c.1 % page + c.2 ≤ page ∧ ((c.1 + c.2) % page = 0 ∨ c.1 + c.2 = off + len))
    (fun _ _ h => nomatch h) (fun start rem rest hrem ih c hc => ?_) off len
  have hlt : start % page < page := Nat.mod_lt _ hpage
  rcases List.mem_cons.1 hc with rfl | hc
  · dsimp only
    refine ⟨by omega, by omega, ?_⟩
    by_cases hleft : 0 < rem - min (page - start % page) rem
    · left
      rw [chunk_end_of_left hpage hleft, Nat.mul_mod_left]
    · right; omega
  · obtain ⟨hsize, hpageEnd, hend⟩ := ih c hc
    exact ⟨hsize, hpageEnd, by omega⟩

/-! ## The chunks page by page -/

/-- A transfer of `rem` bytes from the first byte of page `k`, page by page. -/
def pageChunks (page k rem : Nat) : List (Nat × Nat) :=
  (List.range ((rem + page - 1) / page)).map fun i => ((k + i) * page, min page (rem - i * page))

theorem pageChunks_zero {page : Nat} (hpage : 0 < page) (k : Nat) : pageChunks page k 0 = [] := by
  rw [pageChunks, Nat.div_eq_of_lt (by omega)]; rfl

/-- One page more, one chunk more. -/
theorem ceilDiv_eq_succ {page rem : Nat} (hpage : 0 < page) (hrem : 0 < rem) :
    (rem + page - 1) / page = (rem - page + page - 1) / page + 1 := by
  rcases Nat.le_total rem page with hle | hle
  · rw [Nat.sub_eq_zero_of_le hle, Nat.div_eq_of_lt (show 0 + page - 1 < page by omega)]
    exact Nat.div_eq_of_lt_le (by omega) (by omega)
  · rw [← Nat.add_div_right _ hpage]
    congr 1
    omega

theorem pageChunks_cons {page rem : Nat} (hpage : 0 < page) (hrem : 0 < rem) (k : Nat) :
    pageChunks page k rem = (k * page, min page rem) :: pageChunks page (k + 1) (rem - page) := by
  simp only [pageChunks, ceilDiv_eq_succ hpage hrem, List.range_succ_eq_map, List.map_cons, List.map_map, Nat.add_zero, Nat.zero_mul, Nat.sub_zero]
  congr 2
  funext i
  simp only [Function.comp_apply, Nat.succ_mul, Nat.add_right_comm k, Nat.add_mul]
  congr 1 <;> omega

theorem lt_pageChunks_length {page : Nat} (hpage : 0 < page) (k rem i : Nat) :
    i < (pageChunks page k rem).length ↔ i * page < rem := by
  rw [pageChunks, List.length_map, List.length_range, Nat.lt_iff_add_one_le, Nat.le_div_iff_mul_le hpage, Nat.succ_mul]
  omega

theorem eq_of_pageChunks_getElem? {page k rem i : Nat} {c : Nat × Nat} (h : (pageChunks page k rem)[i]? = some c) :
    c = ((k + i) * page, min page (rem - i * page)) := by
  obtain ⟨hi, rfl⟩ := List.getElem?_eq_some_iff.1 h
  simp [pageChunks]

theorem chunks_eq_pageChunks {page start rem k : Nat} (hpage : 0 < page) (h : 0 < rem → start = k * page) :
    chunks page start rem = pageChunks page k rem := by
  refine chunks_induction hpage (P := fun start rem l => ∀ k, (0 < rem → start = k * page) → l = pageChunks page k rem)
    (fun _ k _ => (pageChunks_zero hpage k).symm) (fun start rem rest hrem ih k hk => ?_) start rem k h
  obtain rfl := hk hrem
  have hroom : page - k * page % page = page := by rw [Nat.mul_mod_left, Nat.sub_zero]
  rw [pageChunks_cons hpage hrem, hroom]
  rw [hroom] at ih
  rw [ih (k + 1) fun hleft => by rw [Nat.succ_mul]; omega]
  congr 2
  omega

/-- 41_write.md R122: the first chunk, then page after page from the next one on. -/
theorem chunks_eq {page len : Nat} (hpage : 0 < page) (hlen : 0 < len) (off : Nat) :
    chunks page off len = (off, min (page - off % page) len) ::
      pageChunks page (off / page + 1) (len - min (page - off % page) len) := by
  rw [chunks_cons hpage hlen, chunks_eq_pageChunks hpage (chunk_end_of_left hpage)]

/-- The number of chunks is `ceil((p0 + L) / P)`. -/
theorem chunks_length {page len : Nat} (hpage : 0 < page) (hlen : 0 < len) (off : Nat) :
    (chunks page off len).length = (off % page + len + page - 1) / page := by
  have hlt : off % page < page := Nat.mod_lt _ hpage
  have hrest : len - min (page - off % page) len = off % page + len - page := by omega
  rw [chunks_eq hpage hlen, List.length_cons, pageChunks, List.length_map, List.length_range, hrest,
    ← ceilDiv_eq_succ hpage (by omega)]

/-- The last chunk takes what the whole pages before it leave. -/
theorem pageChunks_last_size {page k rem n : Nat} {c : Nat × Nat} (hpage : 0 < page)
    (hn : (pageChunks page k rem).length = n + 1) (h : (pageChunks page k rem)[n]? = some c) :
    c.2 = (rem - 1) % page + 1 := by
  have hmem := (lt_pageChunks_length hpage k rem n).1 (by omega)
  have hlast := mt (lt_pageChunks_length hpage k rem (n + 1)).2 (by omega)
  rw [Nat.succ_mul] at hlast
  have hrem : rem - 1 = n * page + (rem - 1 - n * page) := by omega
  rw [eq_of_pageChunks_getElem? h, hrem, Nat.mul_add_mod_self_right, Nat.mod_eq_of_lt (by omega)]
  show min page (rem - n * page) = _
  omega

theorem chunks_sizes_sum {page : Nat} (hpage : 0 < page) (off len : Nat) :
    ((chunks page off len).map (·.2)).sum = len := by
  refine chunks_induction hpage (P := fun _ len l => (l.map (·.2)).sum = len) (fun _ => rfl)
    (fun start rem rest _ ih => ?_) off len
  rw [List.map_cons, List.sum_cons, ih]
  exact Nat.add_sub_of_le (Nat.min_le_right _ _)

/-- Settles O45: every chunk but the first is one of the chunks page by page. -/
theorem chunkStartsAndSizes : Obligations.ChunkStartsAndSizes := by
  intro page off len hpage hlen
  have heq := chunks_eq hpage hlen off
  refine ⟨chunks_length hpage hlen off, by rw [heq]; rfl, fun j c hj hc => ?_, fun j c hj hlt hc => ?_, fun c hlt hc => ?_,
    fun hfit => ?_, chunks_sizes_sum hpage off len⟩
  · obtain ⟨i, rfl⟩ := Nat.exists_eq_add_of_le' hj
    rw [heq, List.getElem?_cons_succ] at hc
    rw [eq_of_pageChunks_getElem? hc, Nat.add_assoc, Nat.add_comm 1 i]
  · obtain ⟨i, rfl⟩ := Nat.exists_eq_add_of_le' hj
    rw [heq, List.length_cons, Nat.add_lt_add_iff_right, lt_pageChunks_length hpage, Nat.succ_mul] at hlt
    rw [heq, List.getElem?_cons_succ] at hc
    rw [eq_of_pageChunks_getElem? hc]
    exact Nat.min_eq_left (by omega)
  · rw [heq, List.length_cons] at hlt
    obtain ⟨n, hn⟩ := Nat.exists_eq_add_of_le' (show 1 ≤ List.length _ from Nat.lt_of_succ_lt_succ hlt)
    rw [heq, List.getLast?_eq_getElem?, List.length_cons, hn, Nat.add_sub_cancel, List.getElem?_cons_succ] at hc
    exact pageChunks_last_size hpage hn hc
  · rw [chunks_cons hpage hlen, Nat.min_eq_right (by omega), Nat.sub_self, chunks_zero]

/-! ## The size of a trace (41_write.md R130) -/

theorem opsOf_dataEvents_length (s : State) (idx size : Nat) : (opsOf (dataEvents s idx size)).length = size := by
  induction size generalizing idx with
  | zero => rfl
  | succ size ih => simp [dataEvents, opsOf, ih]

/-- A chunk's trace: its begin, its address bytes, its data and its end. -/
theorem opsOf_chunkEvents_length {d : BitVec 16} {r : Rec} (h : dispatch d = some r) (s : State) (start idx size : Nat) :
    (opsOf (chunkEvents r s start idx size)).length = 2 + addrBytesOf r + size := by
  simp only [chunkEvents, opsOf, opsOf_append, opsOf_map_writeByte, List.length_cons, List.length_append, List.length_map,
    addressBytes_length h, opsOf_dataEvents_length, List.length_nil]
  omega

theorem opsOf_chunkListEvents_length {d : BitVec 16} {r : Rec} (h : dispatch d = some r) (s : State) (idx : Nat)
    (l : List (Nat × Nat)) :
    (opsOf (chunkListEvents r s idx l)).length = l.length * (2 + addrBytesOf r) + (l.map (·.2)).sum := by
  induction l generalizing idx with
  | nil => simp [chunkListEvents, opsOf]
  | cons c l ih =>
    obtain ⟨start, size⟩ := c
    rw [chunkListEvents, opsOf_append, List.length_append, opsOf_chunkEvents_length h, ih, List.length_cons, List.map_cons,
      List.sum_cons, Nat.succ_mul]
    omega

/-- Settles O46: every chunk has its begin, its address and its end, and the sizes of the chunks make up the length. -/
theorem writeTraceSize : Obligations.WriteTraceSize := by
  intro s d r off len h
  have hpage : 0 < pageOf r := by have := pageOf_bounds h; omega
  rw [writeEvents, opsOf_chunkListEvents_length h, chunks_sizes_sum hpage]
  split
  · rename_i hzero
    rw [hzero, chunks_zero, List.length_nil]
  · rename_i hlen
    rw [chunks_length hpage (Nat.pos_of_ne_zero hlen)]

end Sys2Proof.Machine
end

section
/-! SUPPORT. A session on the reference device that is cut short (20_memory.md R63, 93_implementation_defined.md U8, log 11). -/

namespace Sys2Proof.Machine

/-! ## What a cut does to the device -/

theorem Memory.get?_restore {m : Memory} (hm : Memory.wf m) (a b : Nat) (old : Option Byte) :
    Memory.get? (Memory.restore m a old) b = if b = a then old else Memory.get? m b := by
  split
  · rename_i hb
    subst hb
    cases old with
    | none => exact Memory.get?_erase_same hm b
    | some v => exact Memory.get?_put_same m b v
  · rename_i hb
    cases old with
    | none => exact Memory.get?_erase_other m hb
    | some v => exact Memory.get?_put_other m v hb

/-- Unwinding leaves an address as it was, or puts back what an entry says it held. -/
theorem Device.get?_unwind (draw : Nat) (undo : List (Nat × Option Byte)) {m : Memory} (hm : Memory.wf m) (a : Nat) :
    Memory.get? (Device.unwind draw undo m) a = Memory.get? m a ∨
      (a, Memory.get? (Device.unwind draw undo m) a) ∈ undo := by
  induction undo generalizing m with
  | nil => exact .inl rfl
  | cons entry rest ih =>
    obtain ⟨b, old⟩ := entry
    rw [Device.unwind]
    split
    · exact (ih hm).imp_right (List.mem_cons_of_mem _)
    · rcases ih (Memory.restore_wf hm b old) with h | h
      · rw [h, Memory.get?_restore hm]
        split
        · rename_i hab
          subst hab
          exact .inr List.mem_cons_self
        · exact .inl rfl
      · exact .inr (List.mem_cons_of_mem _ h)

section Cut
variable {d : Device} {r : Rec} {o : Option TOp}

@[simp] theorem Device.cutCounter_session (o : Option TOp) (d : Device) : (d.cutCounter o).session = d.session := by
  unfold Device.cutCounter
  split <;> [rfl; split] <;> rfl

theorem Device.mayStore_of_no_byte (h : ∀ v, o ≠ some (.writeByte v)) : d.mayStore o = d := by
  unfold Device.mayStore
  split
  · exact absurd rfl (h _)
  · rfl

theorem Device.mayStore_of_byte (hr : dispatch d.density = some r) {stored : Bool} (hs : d.session = .data stored) (v : Byte) :
    d.mayStore (some (.writeByte v)) = d.store r v := by
  simp [Device.mayStore, hr, hs]

/-- Outside the data phase, and in it with no byte sent, no data byte is in flight. -/
theorem Device.dataInFlight_eq_false
    (h : (∀ stored, d.session ≠ .data stored) ∨ (d.session = .data false ∧ ∀ v, o ≠ some (.writeByte v))) :
    d.dataInFlight o = false := by
  unfold Device.dataInFlight
  split
  case h_1 hs =>
    rcases h with h | ⟨-, h⟩
    · exact absurd hs (h _)
    · exact absurd rfl (h _)
  case h_2 hs _ =>
    rcases h with h | ⟨hdata, -⟩
    · exact absurd hs (h _)
    · exact (DevSession.data.inj (hdata.symm.trans hs)).symm
  case h_3 => rfl

theorem Device.cut_session (h : ∀ v, o ≠ some (.writeByte v)) : (d.cut o).session = d.session := by
  rw [Device.cut, Device.cutCounter_session]
  split
  · show (d.mayStore o).session = d.session
    rw [Device.mayStore_of_no_byte h]
  · rfl

/-- A byte of a cut chunk is the one in the device once the data byte in flight has been stored, or the one an entry replaced. -/
theorem Device.byteAt_cutChunk (hm : Memory.wf (d.mayStore o).mem) (a : Nat) :
    (d.cutChunk o).byteAt a = (d.mayStore o).byteAt a ∨
      ∃ old, (a, old) ∈ (d.mayStore o).undo ∧
        (d.cutChunk o).byteAt a = old.getD (Config.initialMem (d.mayStore o).epoch a) := by
  refine (Device.get?_unwind (d.mayStore o).draws (d.mayStore o).undo hm a).imp (fun h => ?_) fun h => ⟨_, h, rfl⟩
  exact congrArg (Option.getD · (Config.initialMem (d.mayStore o).epoch a)) h

/-- A byte of a session cut with a data byte on its way: as it was, or the one an entry replaced, or that byte at the counter. -/
theorem Device.byteAt_cutChunk_of_byte (hr : dispatch d.density = some r) (hm : Memory.wf d.mem) (hac : d.ac < capOf r)
    {stored : Bool} (hs : d.session = .data stored) (v : Byte) (a : Nat) :
    (d.cutChunk (some (.writeByte v))).byteAt a = d.byteAt a ∨
      (∃ old, (a, old) ∈ d.undo ∧
        (d.cutChunk (some (.writeByte v))).byteAt a = old.getD (Config.initialMem d.epoch a)) ∨
      (a = d.ac ∧ (d.cutChunk (some (.writeByte v))).byteAt a = v) := by
  have hstore := Device.mayStore_of_byte hr hs v
  have hbyte := Device.byteAt_cutChunk (hstore ▸ Device.store_wf hm r v) a
  rw [hstore, Device.byteAt_store hac, Device.store_of_lt hac] at hbyte
  rcases hbyte with h | ⟨old, hmem, h⟩
  · split at h
    · exact .inr (.inr ⟨‹_›, h⟩)
    · exact .inl h
  · rcases List.mem_cons.1 hmem with heq | hmem
    · cases heq
      exact .inl h
    · exact .inr (.inl ⟨old, hmem, h⟩)

/-- 93_implementation_defined.md U8: which byte the device may hold at an address after a cut. -/
theorem Device.byteAt_abort (hr : dispatch d.density = some r) (hm : Memory.wf d.mem)
    (hac : ∀ v stored, o = some (.writeByte v) → d.session = .data stored → d.ac < capOf r) (ended : Bool) (a : Nat) :
    (d.abort o ended).byteAt a = d.byteAt a ∨
      (∃ old, (a, old) ∈ d.undo ∧ (d.abort o ended).byteAt a = old.getD (Config.initialMem d.epoch a)) ∨
      (∃ v stored, o = some (.writeByte v) ∧ d.session = .data stored ∧ a = d.ac ∧ (d.abort o ended).byteAt a = v) := by
  rw [Device.byteAt_congr (Device.abort_mem d o ended) (Device.abort_epoch d o ended)]
  split
  case isFalse => exact .inl rfl
  case isTrue hflight =>
    by_cases hbyte : ∃ v, o = some (.writeByte v)
    · obtain ⟨v, rfl⟩ := hbyte
      obtain ⟨stored, hs⟩ : ∃ stored, d.session = .data stored := by
        by_contra hno
        rw [Device.dataInFlight_eq_false (.inl (not_exists.1 hno))] at hflight
        cases hflight
      rcases Device.byteAt_cutChunk_of_byte hr hm (hac v stored rfl hs) hs v a with h | h | ⟨ha, h⟩
      · exact .inl h
      · exact .inr (.inl h)
      · exact .inr (.inr ⟨v, stored, rfl, hs, ha, h⟩)
    · have hsame : d.mayStore o = d := Device.mayStore_of_no_byte (not_exists.1 hbyte)
      have h := Device.byteAt_cutChunk (hsame.symm ▸ hm) a
      rw [hsame] at h
      exact h.imp_right .inl

end Cut

/-! ## The statement -/

/-- Settles O57: by whether a data byte is in flight, and whether the cut operation carries it. -/
theorem cutShortChunkTouchesNothingElse : Obligations.CutShortChunkTouchesNothingElse := by
  intro d r o ended hr hm hac
  refine ⟨fun h => by rw [h, Device.abort_ended_session], fun h ho => by rw [h, Device.abort_open, Device.cut_session ho],
    fun h ho hs => ?_, Device.byteAt_abort hr hm hac ended, fun h => ?_⟩
  · subst h ho
    refine Device.cut_none (Device.dataInFlight_eq_false ?_)
    by_cases hdata : d.session = .data false
    · exact .inr ⟨hdata, fun _ => nofun⟩
    · exact .inl fun stored => by cases stored <;> assumption
  · rw [Device.abort_mem, Device.abort_epoch, Device.abort_wcycle, Device.dataInFlight_eq_false h]
    exact ⟨rfl, rfl, rfl⟩

end Sys2Proof.Machine
end

section
/-! SUPPORT. The pulls of a `READ` and the bytes it stores (42_read.md R143). -/

namespace Sys2Proof.Machine

/-! ## The pulls and the stores of the data phase -/

/-- All but the last pull are acknowledged. -/
theorem opsOf_readData (idx : Nat) {values : List Byte} (h : values ≠ []) :
    opsOf (readData idx values) = List.replicate (values.length - 1) .readByteAck ++ [.readByteNak] := by
  induction values generalizing idx with
  | nil => exact absurd rfl h
  | cons v values ih =>
    cases values with
    | nil => rfl
    | cons w rest =>
      rw [readData_cons, if_neg (List.cons_ne_nil w rest), opsOf, opsOf, ih (idx + 1) (List.cons_ne_nil w rest)]
      rfl

theorem storesOf_readData (idx : Nat) (values : List Byte) :
    storesOf (readData idx values) =
      (List.range' idx values.length).zipWith (fun k v => (BitVec.ofNat 16 k, v)) values := by
  induction values generalizing idx with
  | nil => rfl
  | cons v values ih =>
    rw [readData_cons, storesOf, storesOf, ih, List.length_cons, List.range'_succ, List.zipWith_cons_cons]

/-! ## The rest of a READ neither pulls nor stores -/

theorem storesOf_append (l m : List Event) : storesOf (l ++ m) = storesOf l ++ storesOf m := by
  induction l with
  | nil => rfl
  | cons e l ih => cases e <;> simp [storesOf, ih]

theorem storesOf_map_writeByte (bytes : List Byte) : storesOf (bytes.map (fun b => .op (.writeByte b))) = [] := by
  induction bytes with
  | nil => rfl
  | cons b bytes ih => exact ih

/-- A `READ` stores in its data phase only. -/
theorem storesOf_readEvents (r : Rec) (s : State) (off : Nat) (values : List Byte) :
    storesOf (readEvents r s off values) = storesOf (readData 0 values) := by
  simp [readEvents, storesOf, storesOf_append, storesOf_map_writeByte]

/-- A `READ` pulls in its data phase only. -/
theorem pulls_readEvents (r : Rec) (s : State) (off : Nat) (values : List Byte) :
    (opsOf (readEvents r s off values)).filter (fun o => o = .readByteAck ∨ o = .readByteNak) =
      (opsOf (readData 0 values)).filter (fun o => o = .readByteAck ∨ o = .readByteNak) := by
  simp [readEvents, opsOf, opsOf_map_writeByte]

/-! ## The statement -/

/-- Settles O47: the data phase alone pulls and stores, and its operations are all pulls. -/
theorem readAcknowledgesAllButTheLast : Obligations.ReadAcknowledgesAllButTheLast := by
  intro s r off values hne
  constructor
  · rw [pulls_readEvents, opsOf_readData 0 hne]
    simp
  · rw [storesOf_readEvents, storesOf_readData, List.range_eq_range']

end Sys2Proof.Machine
end

section
/-! SUPPORT. The session discipline of a command's trace (43_transport.md R170). -/

namespace Sys2Proof.Machine

/-! ## Runs of the trace grammar -/

theorem BusMode.run_cons {m m' : BusMode} {o : TOp} (h : m.next o = some m') (ops : List TOp) :
    m.run (o :: ops) = m'.run ops := by
  rw [BusMode.run, h]

theorem BusMode.run_append (m : BusMode) (l l' : List TOp) : m.run (l ++ l') = (m.run l).bind (·.run l') := by
  induction l generalizing m with
  | nil => rfl
  | cons o l ih =>
    rw [List.cons_append, BusMode.run, BusMode.run]
    cases m.next o with
    | none => rfl
    | some m' => exact ih m'

/-- A trace run from mode to mode, then another from there. -/
theorem BusMode.run_append_of_run {m m' : BusMode} {l : List TOp} (h : m.run l = some m') (l' : List TOp) :
    m.run (l ++ l') = m'.run l' := by
  rw [BusMode.run_append, h, Option.bind_some]

/-- The discipline is kept by every first part of a trace that keeps it. -/
theorem BusMode.run_take_isSome {m m' : BusMode} {ops : List TOp} (h : m.run ops = some m') (k : Nat) :
    (m.run (ops.take k)).isSome = true := by
  rw [← List.take_append_drop k ops, BusMode.run_append] at h
  exact Option.isSome_of_isSome_bind (Option.isSome_of_eq_some h)

/-! ## The parts of a command's trace -/

/-- `T.begin` with an even byte opens a write-mode session (43_transport.md R165). -/
theorem BusMode.next_begin_write (r : Rec) (s : State) (off : Offset) :
    BusMode.closed.next (.beginSession (busAddr r s.base off)) = some .writing := by
  simp only [BusMode.next, busAddr_even, Bool.false_eq_true, if_false]

/-- `T.begin` with an odd byte opens a read-mode session (43_transport.md R165). -/
theorem BusMode.next_begin_read (b : Byte) : BusMode.closed.next (.beginSession (b ||| 0x01#8)) = some .reading := by
  simp only [BusMode.next, busAddr_read_odd, if_true]

theorem BusMode.run_writeBytes (bytes : List Byte) : BusMode.writing.run (bytes.map .writeByte) = some .writing := by
  induction bytes with
  | nil => rfl
  | cons b bytes ih => exact ih

theorem BusMode.run_dataEvents (s : State) (idx size : Nat) :
    BusMode.writing.run (opsOf (dataEvents s idx size)) = some .writing := by
  induction size generalizing idx with
  | zero => rfl
  | succ size ih => exact ih (idx + 1)

theorem BusMode.run_readData (idx : Nat) (values : List Byte) :
    BusMode.reading.run (opsOf (readData idx values)) = some .reading := by
  induction values generalizing idx with
  | nil => rfl
  | cons v values ih =>
    rw [readData_cons]
    split <;> exact ih (idx + 1)

/-- A chunk is one write-mode session. -/
theorem BusMode.run_chunkEvents (r : Rec) (s : State) (start idx size : Nat) :
    BusMode.closed.run (opsOf (chunkEvents r s start idx size)) = some .closed := by
  rw [chunkEvents, opsOf, BusMode.run_cons (BusMode.next_begin_write r s _), opsOf_append, opsOf_append,
    opsOf_map_writeByte, List.append_assoc, BusMode.run_append_of_run (BusMode.run_writeBytes _),
    BusMode.run_append_of_run (BusMode.run_dataEvents s idx size)]
  rfl

theorem BusMode.run_chunkListEvents (r : Rec) (s : State) (idx : Nat) (l : List (Nat × Nat)) :
    BusMode.closed.run (opsOf (chunkListEvents r s idx l)) = some .closed := by
  induction l generalizing idx with
  | nil => rfl
  | cons c l ih =>
    obtain ⟨start, size⟩ := c
    rw [chunkListEvents, opsOf_append, BusMode.run_append_of_run (BusMode.run_chunkEvents r s start idx size)]
    exact ih (idx + size)

/-- A `READ` is a write-mode session that sets the address, then a read-mode one. -/
theorem BusMode.run_readEvents (r : Rec) (s : State) (off : Nat) (values : List Byte) :
    BusMode.closed.run (opsOf (readEvents r s off values)) = some .closed := by
  have hread : BusMode.writing.run
      (opsOf [.op .endSession, .op (.beginSession (busAddr r s.base (BitVec.ofNat 16 off) ||| 0x01#8))]) =
        some .reading := BusMode.run_cons (BusMode.next_begin_read _) []
  rw [readEvents, opsOf, BusMode.run_cons (BusMode.next_begin_write r s _), opsOf_append, opsOf_append, opsOf_append,
    opsOf_map_writeByte, List.append_assoc, List.append_assoc, BusMode.run_append_of_run (BusMode.run_writeBytes _),
    BusMode.run_append_of_run hread, BusMode.run_append_of_run (BusMode.run_readData 0 values)]
  rfl

/-! ## The statement -/

/-- Settles O48: a `WRITE` is its chunks' sessions one after another, a `READ` two; what begins such a trace runs too. -/
theorem commandTracesAreWellFramed : Obligations.CommandTracesAreWellFramed := by
  intro s d r off len values _
  have hwrite : BusMode.closed.run (opsOf (writeEvents r s off len)) = some .closed :=
    BusMode.run_chunkListEvents r s 0 (chunks (pageOf r) off len)
  have hread := BusMode.run_readEvents r s off values
  exact ⟨hwrite, hread, fun k => ⟨BusMode.run_take_isSome hwrite k, BusMode.run_take_isSome hread k⟩⟩

end Sys2Proof.Machine
end

section
/-! SUPPORT. An engine whose transport never answers (43_transport.md R163). -/

namespace Sys2Proof.Machine

/-- Past the end of the list the inputs are quiet (log 3): what holds of `quiet` and of the list holds of this step's sample. -/
theorem pins_of_forall {P : Sample → Prop} (hquiet : P Sample.quiet) {s : State} (h : ∀ p ∈ s.env.inputs, P p) : P s.pins := by
  unfold State.pins
  cases hi : s.env.inputs with
  | nil => exact hquiet
  | cons p ps => exact h p (by simp [hi])

theorem exists_pendingOp {s : State} (h : s.phase ≠ .idle) : ∃ o, s.pendingOp = some o := by
  cases ho : s.outstanding with
  | none => rw [pendingOp_of_none ho]; exact exists_nextOp h
  | some o => exact ⟨o, pendingOp_of_some ho⟩

/-- A running command that no device and no sample to come answers, and no reset ends. -/
structure State.NeverAnswered (s : State) : Prop where
  inputs : ∀ p ∈ s.env.inputs, p.rst = false ∧ p.answer = none
  device : s.env.device = none
  running : s.phase ≠ .idle
  contract : s.contractHolds

/-- `t` waits for the transport's answer with the registers of `s`. -/
structure State.WaitsAs (s t : State) : Prop where
  phase : t.phase = s.phase
  busy : t.busy = s.busy
  status : t.status = s.status
  dp : t.dp = s.dp
  rsp : t.rsp = none
  req : t.tReq = true

theorem State.WaitsAs.trans {s t u : State} (h : s.WaitsAs t) (h' : t.WaitsAs u) : s.WaitsAs u where
  phase := h'.phase.trans h.phase
  busy := h'.busy.trans h.busy
  status := h'.status.trans h.status
  dp := h'.dp.trans h.dp
  rsp := h'.rsp
  req := h'.req

/-- Once the operation is on the port the engine waits, and nothing to come answers it either. -/
theorem State.NeverAnswered.step_waits {s : State} (h : s.NeverAnswered) :
    ∃ t, step s = .next t ∧ t.NeverAnswered ∧ s.WaitsAs t := by
  obtain ⟨hrst, hans⟩ := pins_of_forall (P := fun p => p.rst = false ∧ p.answer = none) ⟨rfl, rfl⟩ h.inputs
  obtain ⟨o, ho⟩ := exists_pendingOp h.running
  have hout : (s.sample.issue o).outstanding = some o := issue_outstanding ho
  have hreply := transportReply_of_unanswered ⟨hrst, .inl ⟨h.device, hans⟩⟩ h.running ho
  refine ⟨s.sample.issue o, step_of_waiting ⟨hrst, h.running, ho, h.contract⟩ hreply,
    { inputs := fun p hp => h.inputs p (List.mem_of_mem_tail (by simpa using hp))
      device := by simp [h.device]
      running := by simpa using h.running
      contract := fun hnone => by rw [hout] at hnone; cases hnone },
    { phase := by simp, busy := by simp, status := by simp, dp := by simp, rsp := by simp
      req := by simp [State.tReq, hout] }⟩

/-- Any number of steps later the engine waits still. -/
theorem State.NeverAnswered.run_waits {s : State} (h : s.NeverAnswered) (n : Nat) :
    ∃ t, runFor (n + 1) s = .next t ∧ t.NeverAnswered ∧ s.WaitsAs t := by
  induction n with
  | zero =>
    obtain ⟨t, hstep, hnever, hwaits⟩ := h.step_waits
    exact ⟨t, runFor_succ hstep 0, hnever, hwaits⟩
  | succ n ih =>
    obtain ⟨t, hrun, hnever, hwaits⟩ := ih
    obtain ⟨u, hstep, hnever', hwaits'⟩ := hnever.step_waits
    exact ⟨u, runFor_snoc hrun hstep, hnever', hwaits.trans hwaits'⟩

/-- Settles O28: by whether a step has been taken; the first puts the operation on the port, and every later one waits. -/
theorem neverAnsweredIsBusyForEver : Obligations.NeverAnsweredIsBusyForEver := by
  intro s hin hdev hrun hbusy hcon n
  cases n with
  | zero => exact ⟨s, rfl, rfl, hbusy, rfl, rfl, (absurd · (Nat.lt_irrefl 0))⟩
  | succ n =>
    obtain ⟨t, ht, -, hw⟩ := State.NeverAnswered.run_waits ⟨hin, hdev, hrun, hcon⟩ n
    exact ⟨t, ht, hw.phase, hw.busy.trans hbusy, hw.status, hw.dp, fun _ => ⟨hw.rsp, hw.req⟩⟩

end Sys2Proof.Machine
end

section
/-! SUPPORT. The errors at acceptance, and the codes on the ports (60_exceptions.md R181 to R186; 30_encoding.md R82). -/

namespace Sys2Proof.Machine

/-! ## What a transfer with a handle answers at its acceptance -/

theorem reachOf_eq_of_record {s : State} {r : Rec} (hr : s.record = some r) :
    reachOf r = min (s.handle.density.toNat * 128) 65536 :=
  (recordColumnsAreComputed _ r hr).2.1

section Transfer
variable {s : State} {r : Rec} {i : Instr} {off len : Offset}

theorem exec_transfer_past_reach (hi : i = .write off len ∨ i = .read off len) (hv : s.handle.hvalid = true)
    (hr : s.record = some r) (hpast : reachOf r < off.toNat + len.toNat) : exec i s = .next (raise .errRange s) := by
  have hout : inRange r off len = false := Bool.eq_false_iff.2 fun h => Nat.not_le.2 hpast ((inRange_iff r off len).1 h)
  obtain ⟨start, hexec⟩ := exec_transfer hi s
  simp [hexec, admitTransfer, hv, hr, hout]

/-- Within `REACH` a transfer of no bytes completes `OK`, and any other starts, with no event in its acceptance. -/
theorem exec_transfer_within_reach (hi : i = .write off len ∨ i = .read off len) (hv : s.handle.hvalid = true)
    (hr : s.record = some r) (hreach : off.toNat + len.toNat ≤ reachOf r) :
    exec i s = .next (complete .ok s) ∨ ∃ t, exec i s = .next t ∧ t.handle = s.handle ∧ t.log = s.log := by
  by_cases hlen : len = 0
  · subst hlen
    obtain ⟨start, hexec⟩ := exec_transfer hi s
    exact .inl (hexec.trans (admitTransfer_nothing hv hr hreach start))
  · have had : s.Admits r off len := ⟨hv, hr, hreach, hlen⟩
    rcases hi with rfl | rfl
    · exact .inr ⟨_, admitTransfer_of_admits had (startWrite off len), rfl, rfl⟩
    · exact .inr ⟨_, admitTransfer_of_admits had (startRead off len), rfl, rfl⟩

end Transfer

/-! ## The statements about the errors at acceptance -/

/-- Settles O20: the model's `REACH` column is the minimum the statement writes, and decides which way the range check goes. -/
theorem transferPastReachFails : Obligations.TransferPastReachFails := by
  intro s r i off len hi hv hr
  rw [← reachOf_eq_of_record hr]
  refine ⟨fun hpast => exec_transfer_past_reach hi hv hr hpast, fun hreach => ?_⟩
  rcases exec_transfer_within_reach hi hv hr hreach with hexec | ⟨t, hexec, hhandle, hlog⟩
  · exact ⟨_, hexec, rfl, .inr rfl⟩
  · exact ⟨t, hexec, hhandle, .inl hlog⟩

/-- Settles O15: the completion at acceptance, with the handle as it was. -/
theorem reservedWordChangesNothingElse : Obligations.ReservedWordChangesNothingElse := by
  intro s w e hoff hdec
  have ⟨_, hidle, _⟩ := hoff
  rw [step_of_offers hoff, acceptStep, hdec]
  exact congrArg Host.Outcome.next (complete_accept_of_idle hidle w .errIllegalCmd s.handle)

/-- Settles O19. -/
theorem transferWithoutHandleFails : Obligations.TransferWithoutHandleFails :=
  fun _ _ _ _ hi hv => exec_transfer_of_no_handle hi hv

/-! ## The codes on the ports (30_encoding.md R82) -/

theorem tOp_of_some {s : State} {o : TOp} (h : s.outstanding = some o) : s.tOp = o.code := by
  simp [State.tOp, h]

theorem tOp_of_none {s : State} (h : s.outstanding = none) : s.tOp = 0 := by
  simp [State.tOp, h]

theorem TOp.code_ne (o : TOp) : o.code ≠ 0#3 ∧ o.code ≠ 6#3 ∧ o.code ≠ 7#3 := by
  cases o <;> simp [TOp.code]

/-- Settles O39: by whether an operation is outstanding. -/
theorem portCodes : Obligations.PortCodes := by
  refine ⟨rfl, fun _ _ => rfl, fun s => ?_, fun s => ?_⟩ <;> cases hout : s.outstanding with
  | none => simp [tOp_of_none hout, State.tReq, hout]
  | some o => simp [tOp_of_some hout, State.tReq, hout, TOp.code_ne o]

end Sys2Proof.Machine
end

section
/-! SUPPORT. Reset, and the hazards of the command port, of a session left open and of an address nobody answers
(70_reset_and_hazards.md R210, R211, R225, R227, R230). -/

namespace Sys2Proof.Machine

/-! ## The command port while a command runs (R225) -/

/-- Outside IDLE the engine looks at the reset and at the transport's answer only. -/
theorem engineStep_of_running {s : State} (h : s.phase ≠ .idle) (p : Sample) :
    engineStep p s = if p.rst then .next (resetStep p s) else sequencerStep p s := by
  simp [engineStep, h]

/-- What the outside world does beside the command port does not depend on that port. -/
theorem sample_command {s : State} {p : Sample} {rest : List Sample} (h : s.env.inputs = p :: rest) (c : Option CmdWord) :
    State.sample { s with env := { s.env with inputs := { p with cmd := c } :: rest } } = s.sample := by
  simp [State.sample, State.restored, State.pins, h]

/-- `OP`, `C_OFF`, `C_LEN` are written at an acceptance only (10_state.md R13). -/
theorem step_latch {s t : State} (h : step s = .next t) : (∃ w, s.offers w) ∨ t.latch = s.latch := by
  cases stepTo_of_next h with
  | resets => exact .inr rfl
  | idles => exact .inr rfl
  | completes w _ _ offer => exact .inl ⟨w, offer⟩
  | startsWrite w _ offer => exact .inl ⟨w, offer⟩
  | startsRead w _ offer => exact .inl ⟨w, offer⟩
  | waits => exact .inr (by simp)
  | fails => exact .inr (by simp)
  | done => exact .inr (by simp)

/-- Settles O35: the two steps have the same sampled state, and the sequencer sees the same reset and the same answer. -/
theorem commandPortIsIgnoredWhileBusy : Obligations.CommandPortIsIgnoredWhileBusy := by
  intro s p rest c hrun hin
  refine ⟨?_, fun _ t hstep => (step_latch hstep).resolve_left fun ⟨_, _, hidle, _⟩ => hrun hidle⟩
  have hrun' : s.sample.phase ≠ .idle := hrun
  rw [step, step, sample_command hin, pins_of_inputs hin, engineStep_of_running hrun', engineStep_of_running hrun']
  rfl

/-! ## A session left open (R227) -/

/-- Settles O30: a step that drives a `T.begin` finds no session open, so the sequencer refuses this one. -/
theorem beginInsideOpenSessionIsRefused : Obligations.BeginInsideOpenSessionIsRefused := by
  intro s hrst hout hopen hph
  have hrun : s.phase ≠ .idle := by rcases hph with h | h | h <;> simp [h]
  rcases drives_or_refused hrst hrun with ⟨o, hdrives⟩ | ⟨hrefused, -⟩
  · have hclosed := hdrives.contract hout hph
    rw [hopen] at hclosed
    cases hclosed
  · exact hrefused

/-! ## An address no device answers (R230) -/

/-- The attached device does not answer to the bus byte `b`: its strap is another, whatever it is doing (20_memory.md R61). -/
def Env.NoneAt (b : Byte) (e : Env) : Prop :=
  ∃ d r, e.device = some d ∧ dispatch d.density = some r ∧ b &&& 0xFE#8 &&& ~~~((r.foldMask >>> 7).setWidth 8) ≠ d.strap

theorem Device.respond_begin_of_strap_ne {d : Device} {r : Rec} {b : Byte} (hr : dispatch d.density = some r)
    (h : b &&& 0xFE#8 &&& ~~~((r.foldMask >>> 7).setWidth 8) ≠ d.strap) : d.respond (.beginSession b) = .silent := by
  rw [Device.respond_eq hr, Device.react_begin, if_neg fun hsel => h ((Device.selected_iff b).1 hsel).1]

/-- Time changes neither the device's strap nor its density. -/
theorem Env.NoneAt.sample {s : State} {b : Byte} (h : s.env.NoneAt b) (hrun : s.phase ≠ .idle) : s.sample.env.NoneAt b := by
  obtain ⟨d, r, hd, hr, hb⟩ := h
  exact ⟨d.tick, r, by rw [sample_device_of_ne_idle hrun, hd]; rfl, hr, hb⟩

theorem Env.NoneAt.waiting {p : Sample} {b : Byte} {e : Env} (h : e.NoneAt b) (hp : p.answer ≠ some .fail) :
    transportReply p (.beginSession b) e = .waiting := by
  obtain ⟨d, r, hd, hr, hb⟩ := h
  exact transportReply_device_silent hp hd (Device.respond_begin_of_strap_ne hr hb)

/-- `t` is where the transfer running in `s` has got to: at the `T.begin` for its bus byte, which no device answers, and which no
sample to come ends. -/
structure State.StuckAtBegin (s t : State) : Prop where
  inputs : ∀ p ∈ t.env.inputs, p.rst = false ∧ p.answer ≠ some .fail
  absent : t.env.NoneAt s.dp.busb
  running : t.phase ≠ .idle
  pending : t.pendingOp = some (.beginSession s.dp.busb)
  contract : t.contractHolds
  phase : t.phase = s.phase
  busy : t.busy = s.busy
  dp : t.dp = s.dp
  handle : t.handle = s.handle
  status : t.status = s.status

/-- Every step leaves the transfer there, with the `T.begin` on the port. -/
theorem State.StuckAtBegin.step_waits {s t : State} (h : s.StuckAtBegin t) :
    ∃ u, step t = .next u ∧ s.StuckAtBegin u ∧ u.rsp = none ∧ u.outstanding = some (.beginSession s.dp.busb) := by
  obtain ⟨hrst, hans⟩ := pins_of_forall (P := fun p => p.rst = false ∧ p.answer ≠ some .fail) ⟨rfl, nofun⟩ h.inputs
  have hout := issue_outstanding h.pending
  have habsent := h.absent.sample h.running
  refine ⟨t.sample.issue (.beginSession s.dp.busb),
    step_of_waiting ⟨hrst, h.running, h.pending, h.contract⟩ (habsent.waiting hans), ?_, by simp, hout⟩
  exact {
    inputs := fun p hp => h.inputs p (List.mem_of_mem_tail (by simpa using hp))
    absent := by rw [issue_env]; exact habsent
    running := by simpa using h.running
    pending := pendingOp_of_some hout
    contract := fun hnone => by rw [hout] at hnone; cases hnone
    phase := by simp [h.phase]
    busy := by simp [h.busy]
    dp := by simp [h.dp]
    handle := by simp [h.handle]
    status := by simp [h.status] }

theorem State.StuckAtBegin.run_waits {s : State} (h : s.StuckAtBegin s) (n : Nat) :
    ∃ t, runFor n s = .next t ∧ s.StuckAtBegin t ∧
      (0 < n → t.rsp = none ∧ t.outstanding = some (.beginSession s.dp.busb)) := by
  induction n with
  | zero => exact ⟨s, rfl, h, (absurd · (Nat.lt_irrefl 0))⟩
  | succ n ih =>
    obtain ⟨t, hrun, ht, -⟩ := ih
    obtain ⟨u, hstep, hu, hport⟩ := ht.step_waits
    exact ⟨u, runFor_snoc hrun hstep, hu, fun _ => hport⟩

/-- Settles O29, by induction on the number of steps. -/
theorem absentDeviceIsWaitedForEver : Obligations.AbsentDeviceIsWaitedForEver := by
  intro s d r hin hd hr hph hout hclosed hstrap n
  have hstuck : s.StuckAtBegin s := {
    inputs := hin
    absent := ⟨d, r, hd, hr, hstrap⟩
    running := by rcases hph with h | h <;> simp [h]
    pending := by rw [pendingOp_of_none hout]; rcases hph with h | h <;> simp [State.nextOp, h]
    contract := fun _ _ => hclosed
    phase := rfl
    busy := rfl
    dp := rfl
    handle := rfl
    status := rfl }
  obtain ⟨t, hrun, ht, hport⟩ := hstuck.run_waits n
  exact ⟨t, hrun, ht.phase, ht.busy, ht.dp, ht.handle, ht.status, hport⟩

/-! ## Reset (R210, R211) -/

/-- `d'` is a later state of the device `d`, outside the data phase of a write, with the memory and the write cycle of `d`. -/
structure Device.Undisturbed (d d' : Device) : Prop where
  mem : d'.mem = d.mem
  epoch : d'.epoch = d.epoch
  wcycle : d'.wcycle = d.wcycle
  noData : ∀ stored, d'.session ≠ .data stored

section Undisturbed
variable {d d' : Device}

theorem Device.Undisturbed.refl (h : ∀ stored, d.session ≠ .data stored) : d.Undisturbed d := ⟨rfl, rfl, rfl, h⟩

/-- A session cut short outside the data phase (log 11). -/
theorem Device.Undisturbed.abort (h : d.Undisturbed d') (o : Option TOp) (ended : Bool) : d.Undisturbed (d'.abort o ended) := by
  have hflight : d'.dataInFlight o = false := Device.dataInFlight_eq_false (.inl h.noData)
  exact {
    mem := by simp [hflight, h.mem]
    epoch := by simp [hflight, h.epoch]
    wcycle := by simp [hflight, h.wcycle]
    noData := fun stored => by
      cases ended with
      | true => simp
      | false => simpa [Device.cut, hflight] using h.noData stored }

/-- With nothing outstanding and the session left open nothing is cut. -/
theorem Device.Undisturbed.abort_none_open (h : d.Undisturbed d') : d'.abort none false = d' :=
  Device.cut_none (Device.dataInFlight_eq_false (.inl h.noData))

/-- With nothing outstanding the cut leaves the counter alone. -/
theorem Device.Undisturbed.abort_none_ac (h : d.Undisturbed d') (ended : Bool) : (d'.abort none ended).ac = d'.ac := by
  have hcut : d'.cut none = d' := h.abort_none_open
  cases ended <;> simp [Device.abort, hcut]

end Undisturbed

/-- Whether a reset cuts a session short: it comes during a command, with an operation outstanding or a session open. -/
def Env.cutByReset (busy : Bool) (o : Option TOp) (e : Env) : Bool := busy && (e.sessionOpen || o.isSome)

theorem afterReset_device (busy : Bool) (o : Option TOp) (leftOpen : Bool) (e : Env) :
    (e.afterReset busy o leftOpen).device =
      e.device.map fun d => if e.cutByReset busy o then d.abort o !leftOpen else d := by
  unfold Env.afterReset Env.cutByReset
  split <;> simp

theorem afterReset_of_not_busy (o : Option TOp) (leftOpen : Bool) (e : Env) : e.afterReset false o leftOpen = e := rfl

/-- A device outside the data phase, after the sample is taken: time has passed, and a restored session is over. -/
theorem sample_device_undisturbed {s : State} {d : Device} (hd : s.env.device = some d)
    (hs : ∀ stored, d.session ≠ .data stored) :
    ∃ d', s.sample.env.device = some d' ∧ d.tick.Undisturbed d' ∧ d'.ac = d.ac ∧ (s.pins.restore = false → d' = d.tick) := by
  have htick : d.tick.Undisturbed d.tick := .refl hs
  refine ⟨_, by rw [sample_device, hd]; rfl, ?_⟩
  dsimp only
  split
  case isTrue hres =>
    refine ⟨htick.abort none true, htick.abort_none_ac true, fun hno => ?_⟩
    simp [State.restored, hno] at hres
  case isFalse => exact ⟨htick, rfl, fun _ => rfl⟩

/-- A device outside the data phase, after a reset (log 11). -/
theorem reset_device_undisturbed {s : State} {d : Device} (hd : s.env.device = some d)
    (hs : ∀ stored, d.session ≠ .data stored) :
    ∃ d', (resetStep s.pins s.sample).env.device = some d' ∧ d.tick.Undisturbed d' ∧
      (s.outstanding = none → d'.ac = d.ac) ∧
      (s.outstanding = none → s.pins.leftOpen = true → s.pins.restore = false → d' = d.tick) := by
  obtain ⟨d1, hd1, hkept, hac, hsame⟩ := sample_device_undisturbed hd hs
  refine ⟨_, (afterReset_device ..).trans (by rw [hd1]; rfl), ?_⟩
  dsimp only
  split
  case isTrue =>
    refine ⟨hkept.abort _ _, fun hout => ?_, fun hout hopen hres => ?_⟩
    · rw [sample_outstanding, hout, hkept.abort_none_ac, hac]
    · rw [sample_outstanding, hout, hopen, Bool.not_true, hkept.abort_none_open, hsame hres]
  case isFalse => exact ⟨hkept, fun _ => hac, fun _ _ => hsame⟩

/-- Settles O37: the registers are `hardReset`'s, the device by whether the reset cuts a session short. -/
theorem resetInAnyPhase : Obligations.ResetInAnyPhase := by
  intro s hrst
  refine ⟨by simp [State.cmdReady, hrst], resetStep s.pins s.sample, step_of_reset hrst, rfl, rfl, rfl, rfl, rfl, rfl, rfl, rfl,
    rfl, rfl, afterReset_wbuf .., afterReset_rbuf .., fun hbusy => ?_, fun d hd hs => ?_, rfl, rfl, rfl, rfl, fun hrst' => ?_⟩
  · show s.sample.env.afterReset s.busy s.outstanding s.pins.leftOpen = s.sample.env
    rw [hbusy, afterReset_of_not_busy]
  · obtain ⟨d', hd', hkept, hcounter⟩ := reset_device_undisturbed hd hs
    exact ⟨d', hd', hkept.mem, hkept.epoch, hkept.wcycle, hcounter⟩
  · have hphase : (resetStep s.pins s.sample).phase = .idle := rfl
    simp [State.cmdReady, hphase, hrst']

end Sys2Proof.Machine
end
